-- ==== Sys2Proof/Word.lean ====
section
/-! DEFINITION. The word types of the VS416: bytes of link frames and of memory words, 40-bit bus addresses,
8-byte beats, and the timebase count. -/

namespace Sys2Proof

/-- One byte of a link frame, a status record or a memory word (R167). -/
abbrev Byte := BitVec 8

/-- A 40-bit byte address (R1, R167). -/
abbrev Addr := BitVec 40

/-- The 8 bytes of one beat, byte lane 0 least significant (R1, R167; log 4). -/
abbrev Dword := BitVec 64

/-- A count of the timebase, in microseconds (R162). -/
abbrev Micros := BitVec 32

end Sys2Proof
end

