-- ==== Sys2Proof/Syntax.lean ====
section
/-! DEFINITION. The commands of the VS416: one constructor of `Instr` for each row of spec/opcode_table.json.
A link command carries the complete bytes of its frame that follow the code byte (R151, R153). -/

namespace Sys2Proof

/-- The direction of a transfer (R1). -/
inductive Kind where
  | read
  | write
  deriving DecidableEq, Repr

/-- One beat of write data with its 8 byte-lane enables; lane n enables the byte at offset n (R1, log 4). -/
structure Beat where
  data  : Dword
  lanes : Byte
  deriving DecidableEq, Repr

/-- A request as the system port receives it, its master number apart (R1). `data` is empty for a READ. -/
structure Request where
  kind  : Kind
  addr  : Addr
  beats : Nat
  data  : List Beat
  deriving DecidableEq, Repr

/-- The status of a completion from the memory side, which never returns DENIED (R3). -/
inductive MemStatus where
  | done
  | memfault
  deriving DecidableEq, Repr

/-- The commands and events of the part, one for each row of spec/opcode_table.json. -/
inductive Instr where
  /-- A request arrives from a master at the system port (R4). -/
  | requestArrival (master : Fin 16) (request : Request)
  /-- The head of a master's intake queue is classified (R6). -/
  | classification (master : Fin 16)
  /-- The issue arbiter grants one free place (R17). -/
  | issueGrant
  /-- The memory side completes the piece issued under a tag (R18). -/
  | pieceCompletion (tag : Fin 32) (status : MemStatus) (data : List Dword)
  /-- The memory side completes the copier burst issued under a tag (R77). -/
  | copierBurstCompletion (tag : Fin 32) (status : MemStatus) (data : List Dword)
  /-- The memory side completes the record write issued under a tag (R142). -/
  | recordWriteCompletion (tag : Fin 32) (status : MemStatus)
  /-- The memory side completes the write-back issued under a tag (R144). -/
  | writeBackCompletion (tag : Fin 32) (status : MemStatus)
  /-- The oldest entry of a master's response list is answered on the bus (R21). -/
  | responseSent (master : Fin 16)
  /-- RESET_N is asserted and released; the operand is the level of SSEL at the release (R22, R151, R166). -/
  | hardReset (sselLow : Bool)
  /-- A rising edge on FRMc (R108). -/
  | frameLineEvent (line : Fin 8)
  /-- The stall timer of a master's slot wait expires (R66). -/
  | slotWaitTimerExpiry (master : Fin 16)
  /-- The stall timer of a master's visibility wait expires (R99). -/
  | visibilityWaitTimerExpiry (master : Fin 16)
  /-- The idle timer of the view of a consumer in a window expires (R116). -/
  | idleExpiry (window : Fin 16) (consumer : Fin 8)
  /-- The holdoff timer of the notice ring expires (R143). -/
  | holdoffExpiry
  /-- The commit in progress of a window, its drain count at 0, is taken (R131). -/
  | commitTake (window : Fin 16)
  /-- The drain of a window completes (R41). -/
  | drainCompletion (window : Fin 16)
  /-- The clearing of a soft reset (R165). -/
  | softResetClearing
  /-- Link command DEFINE WINDOW (R28). -/
  | defineWindow (params : List Byte)
  /-- Link command SET COMMIT WORD (R32). -/
  | setCommitWord (params : List Byte)
  /-- Link command UNDEFINE WINDOW (R32). -/
  | undefineWindow (params : List Byte)
  /-- Link command ENABLE WINDOW (R34). -/
  | enableWindow (params : List Byte)
  /-- Link command DRAIN WINDOW (R40). -/
  | drainWindow (params : List Byte)
  /-- Link command RESUME WINDOW (R39). -/
  | resumeWindow (params : List Byte)
  /-- Link command SET STALL LIMIT (R35). -/
  | setStallLimit (params : List Byte)
  /-- Link command PUBLISH (R157). -/
  | publish (params : List Byte)
  /-- Link command ABANDON (R157). -/
  | abandon (params : List Byte)
  /-- Link command BIND CONSUMER (R107). -/
  | bindConsumer (params : List Byte)
  /-- Link command UNBIND CONSUMER (R107). -/
  | unbindConsumer (params : List Byte)
  /-- Link command SET NOTICE RING (R137). -/
  | setNoticeRing (params : List Byte)
  /-- Link command SET NOTICE MASK (R140). -/
  | setNoticeMask (params : List Byte)
  /-- Link command FLUSH NOTICES (R144). -/
  | flushNotices (params : List Byte)
  /-- Link command SOFT RESET (R163). -/
  | softReset (params : List Byte)
  /-- A frame whose code names no command ends (R153). -/
  | unknownCommandFrame (code : Byte) (params : List Byte)
  /-- Read command READ WINDOW DEFINITION (R160). -/
  | readWindowDefinition (params : List Byte)
  /-- Read command READ WINDOW STATUS (R160). -/
  | readWindowStatus (params : List Byte)
  /-- Read command READ VIEW STATUS (R161). -/
  | readViewStatus (params : List Byte)
  /-- Read command READ CONSUMER (R161). -/
  | readConsumer (params : List Byte)
  /-- Read command READ RING STATUS (R146). -/
  | readRingStatus (params : List Byte)
  /-- Read command READ PART STATUS (R161). -/
  | readPartStatus (params : List Byte)
  /-- Read command READ RESULT (R161). -/
  | readResult (params : List Byte)
  /-- One microsecond of REFCLK passes (R162). -/
  | timebaseIncrement
  /-- SSEL, low when RESET_N was released, rises (R151). -/
  | sselRiseAfterReset
  deriving DecidableEq, Repr

end Sys2Proof
end

