-- ==== Sys2Proof/Decode.lean ====
section
/-! DEFINITION. The command a word of table bits spells. No row of spec/opcode_table.json gives bits: the part has no
instruction words (log 3), so every word spells none. -/

namespace Sys2Proof

/-- The command that `w`, read as the table numbers the bits of its rows, spells: none, for no row has bits. -/
def decodeTableWord (_nbits _w : Nat) : Option Instr := none

end Sys2Proof
end

