-- ==== Sys2Proof/Config.lean ====
section
/-! DEFINITION. What the manual leaves open (free values, without a body) and the fixed sizes of the VS416. -/

namespace Sys2Proof

/-- FREE VALUE (log 6). At the end of a block copy the copier may choose its next block before or after the slot
manager has acted on the report of that end (section 11.1, R76, R78); the manual fixes no order. True stands for the
choice being made first. The argument numbers the draws. -/
opaque Config.copierChoosesFirst : Nat → Bool

/-- FREE VALUE (log 9). The beat at a position of read data that a completion with too few beats does not carry. R3 has
no such completion, and the manual gives no value. -/
opaque Config.missingBeat : Nat → Dword

/-- FREE VALUE (log 26). Whether SDO is driven, and to which level, while SSEL is low without a frame: after a reset
released with SSEL low (R151). The manual says what SDO does while SSEL is high and within a frame. -/
opaque Config.sdoBeforeFrame : Option Bool

/-- R4: an intake queue holds up to 8 requests. -/
abbrev Config.intakeDepth : Nat := 8

/-- R5: a response list holds up to 16 requests. -/
abbrev Config.responseDepth : Nat := 16

/-- R123: a commit queue holds up to 4 commits. -/
abbrev Config.commitDepth : Nat := 4

/-- R139: the pending queue holds up to 32 notices. -/
abbrev Config.pendingDepth : Nat := 32

/-- R139: the lost count stays at 255. -/
abbrev Config.lostMax : Nat := 255

/-- R96: a lag of 255 stays 255. -/
abbrev Config.lagMax : Nat := 255

/-- R1: the end of the 40-bit address space. -/
abbrev Config.addressSpace : Nat := 2 ^ 40

/-- R7: the 4 KiB that a request may not cross. -/
abbrev Config.page : Nat := 4096

/-- R76: a block is copied in chunks of 128 B, 16 beats each (R77). -/
abbrev Config.chunkBytes : Nat := 128

/-- The masters in the order 0 to 15 in which the rules take them. -/
def masters : List (Fin 16) := [0, 1, 2, 3, 4, 5, 6, 7, 8, 9, 10, 11, 12, 13, 14, 15]

/-- The windows in the order 0 to 15. -/
def windowNumbers : List (Fin 16) := [0, 1, 2, 3, 4, 5, 6, 7, 8, 9, 10, 11, 12, 13, 14, 15]

/-- The consumers in the order 0 to 7. -/
def consumerNumbers : List (Fin 8) := [0, 1, 2, 3, 4, 5, 6, 7]

/-- The slot numbers in the order 0 to 3. -/
def slotNumbers : List (Fin 4) := [0, 1, 2, 3]

/-- The 32 places of the memory port. -/
def placeNumbers : List (Fin 32) :=
  [0, 1, 2, 3, 4, 5, 6, 7, 8, 9, 10, 11, 12, 13, 14, 15, 16, 17, 18, 19, 20, 21, 22, 23, 24, 25, 26, 27, 28, 29, 30, 31]

/-- The 4 burst buffers of the copier. -/
def bufferNumbers : List (Fin 4) := [0, 1, 2, 3]

end Sys2Proof
end

