-- ==== Sys2Proof/Machine/State.lean ====
section
/-! DEFINITION. The state of the VS416, block by block as the General description owns it, as plain data; what can stop
a step (nothing does: log 2); and the machine right after reset. -/

namespace Sys2Proof.Machine

/-! ### The system port and the memory port -/

/-- The three response statuses of the system port (R2). -/
inductive Status where
  | done
  | denied
  | memfault
  deriving DecidableEq, Repr

/-- A response: its status and, for a READ, exactly its beats of data (R2). -/
structure Response where
  status : Status
  data   : List Dword
  deriving DecidableEq, Repr

/-- What a piece was mapped to: no target of a window (passthrough), a slot (R48), or a physical line of a rolling
window, with the ring position whose read count the piece is counted in, if any (R91, R95). -/
inductive Target where
  | memory
  | slot (slot : Fin 4)
  | line (line : Nat) (counted : Option Nat)
  deriving DecidableEq, Repr

/-- The condition a mapped piece still carries (R15). -/
inductive Cond where
  | clear
  | copyWait
  | visibility
  deriving DecidableEq, Repr

/-- How far a piece has come: unissued, issued, or completed. -/
inductive PieceStage where
  | unissued
  | issued
  | done (data : List Dword)
  | faulted
  deriving DecidableEq, Repr

/-- One piece of a request (R14): its own address, its beats, its block or line number, and, once mapped, its physical
address, target and condition. -/
structure Piece where
  addr   : Addr
  beats  : Nat
  data   : List Beat
  unit   : Nat
  phys   : Addr
  target : Target
  cond   : Cond
  stage  : PieceStage
  deriving DecidableEq, Repr

/-- What a WAITING request waits for (R15): nothing but its pieces (mapped), the fence (R129), or a slot (R65; whether its
stall timer has been started, which a RECLAIM leaves started for ever). -/
inductive Wait where
  | mapped
  | fence
  | slot (timerStarted : Bool)
  deriving DecidableEq, Repr

/-- The stage of a response-list entry (R5). -/
inductive Stage where
  | waiting (wait : Wait)
  | inFlight
  | held
  | complete (response : Response)
  deriving DecidableEq, Repr

/-- One entry of a response list (R5). `id` names it for the places and the commits that point at it (log 5). `closing`
marks a closing write (R125), `inDrain` membership of its window's drain set (R128), and the last three count the
commits created from the store (R132). -/
structure Entry where
  id         : Nat
  request    : Request
  window     : Option (Fin 16)
  stage      : Stage
  pieces     : List Piece
  closing    : Bool
  inDrain    : Bool
  created    : Nat
  unresolved : Nat
  anyTaken   : Bool
  deriving DecidableEq, Repr

/-- The owner a completion is delivered to (R3). -/
inductive Owner where
  | piece (master : Fin 16) (id : Nat) (index : Nat)
  | copierBurst (buffer : Fin 4)
  | noticeWrite
  deriving DecidableEq, Repr

/-- A memory request that holds one of the 32 places (R3, R17). Its issue tag is its place number (log 5). -/
structure MemRequest where
  owner : Owner
  kind  : Kind
  addr  : Addr
  beats : Nat
  data  : List Beat
  deriving DecidableEq, Repr

/-- The 18 contenders of the issue arbiter (R17). -/
inductive Contender where
  | master (m : Fin 16)
  | noticeWriter
  | copier
  deriving DecidableEq, Repr

/-! ### The window controller -/

/-- The lifecycle state of a window (R24). -/
inductive WinState where
  | undefined
  | defined
  | live
  | halted
  | draining
  deriving DecidableEq, Repr

/-- The commit trigger of a window (R25). -/
inductive Trigger where
  | commitWord
  | closingWrite
  | linkOnly
  deriving DecidableEq, Repr

/-- The exhaustion policy of a window (R25). -/
inductive Policy where
  | stall
  | reclaim
  deriving DecidableEq, Repr

/-- The coverage policy of a slotted window (R26). -/
inductive Coverage where
  | asIs
  | requireFull
  | backfill
  deriving DecidableEq, Repr

/-- The report that halted a window (R24). -/
inductive HaltCause where
  | memfault
  | backfillFailed
  deriving DecidableEq, Repr

/-- The fields of a definition that depend on its kind: SLOTTED with its block count, coverage and as many slot bases as
its slot count (R26), or ROLLING with its four line counts and line region base (R27). -/
inductive Geometry where
  | slotted (blocks : Nat) (coverage : Coverage) (bases : List Addr)
  | rolling (top visible staging bottom : Nat) (base : Addr)
  deriving DecidableEq, Repr

/-- The definition of a window (R25): virtual base, block size code k, producer and consumer sets, commit trigger and
word, exhaustion policy, stall limit in µs, halt on fault, and the fields of its kind. -/
structure Definition where
  base        : Addr
  sizeCode    : Nat
  producers   : BitVec 16
  consumers   : BitVec 8
  trigger     : Trigger
  word        : Option Addr
  policy      : Policy
  limit       : Nat
  haltOnFault : Bool
  geometry    : Geometry
  deriving DecidableEq, Repr

/-- One entry of the window table (R24). -/
structure Window where
  state      : WinState
  definition : Option Definition
  inFlight   : Nat
  waiting    : Nat
  haltCause  : Option HaltCause
  deriving DecidableEq, Repr

/-- A running stall timer: the timebase count at its start and the limit it took (R35). -/
structure Timer where
  start : Micros
  limit : Nat
  deriving DecidableEq, Repr

/-! ### The slot manager -/

/-- The state of one block map entry (R69). -/
inductive BlockState where
  | notWritten
  | needsCopy
  | copying
  | copied
  | written
  deriving DecidableEq, Repr

/-- What a FILLING or SEALED slot record holds besides its counts: block map, written count, backfill source (R43). -/
structure Work where
  map     : List BlockState
  written : Nat
  source  : Option (Fin 4)
  deriving DecidableEq, Repr

/-- The state of a slot, with the fields R43 says are present in it. -/
inductive SlotState where
  | free
  | filling (work : Work)
  | sealed (work : Work) (tag : BitVec 16)
  | published (generation : BitVec 32)
  | retiring
  deriving DecidableEq, Repr

/-- A slot record (R43). -/
structure Slot where
  state    : SlotState
  pins     : Nat
  inFlight : Nat
  waiting  : Nat
  hold     : Bool
  deriving DecidableEq, Repr

/-- The slot manager's state of one window: its slot records and its window-level fields (R43, R44). -/
structure SlotUnit where
  slots   : Vector (Option Slot) 4
  counter : BitVec 32
  front   : Fin 4
  filling : Option (Fin 4)
  sealed  : Option (Fin 4)
  deriving DecidableEq, Repr

/-! ### The roll unit -/

/-- The roll unit's state of one window (R90); `reads` lists the read counts of the ring positions in order. -/
structure RollState where
  origin : Nat
  serial : BitVec 32
  seeing : Nat
  reads  : List Nat
  deriving DecidableEq, Repr

/-! ### The view unit -/

/-- How a consumer's frame starts are found (R106). -/
inductive FrameSource where
  | line
  | firstBlock
  deriving DecidableEq, Repr

/-- The binding of a bound consumer (R106). -/
structure Binding where
  master : Fin 16
  source : FrameSource
  idle   : Nat
  deriving DecidableEq, Repr

/-- The state of a view with what it holds (R109, R110). -/
inductive ViewState where
  | unpinned
  | pinnedSlot (slot : Fin 4) (generation : BitVec 32)
  | pinnedOrigin (origin : Nat) (lag : Nat)
  | torn
  deriving DecidableEq, Repr

/-- A view record (R109); `timer` is none when the idle timer is stopped, else its start. -/
structure View where
  state  : ViewState
  frames : BitVec 16
  mark   : Option Nat
  timer  : Option Micros
  deriving DecidableEq, Repr

/-! ### The copier -/

/-- An entry of the urgent list (R73). -/
structure Urgent where
  window : Fin 16
  slot   : Fin 4
  block  : Nat
  deriving DecidableEq, Repr

/-- The stage of an occupied burst buffer: its read is in flight, it is full, or its write is in flight (R77). -/
inductive BufferStage where
  | reading
  | full (data : List Dword)
  | writing (data : List Dword)
  deriving DecidableEq, Repr

/-- An occupied burst buffer: its chunk and stage (R73, R77). -/
structure Buffer where
  chunk : Nat
  stage : BufferStage
  deriving DecidableEq, Repr

/-- The attempt of a block copy (R73). -/
inductive Attempt where
  | first
  | retry
  deriving DecidableEq, Repr

/-- The block copy in progress (R73). Chunks below `next` have been offered a read burst in the current attempt, and
`written` of them have completed their write; `failed` marks a failed first attempt that still has bursts in flight. -/
structure Copy where
  window  : Fin 16
  source  : Fin 4
  dest    : Fin 4
  block   : Nat
  attempt : Attempt
  failed  : Bool
  dropped : Bool
  next    : Nat
  written : Nat
  deriving DecidableEq, Repr

/-- The copier (R73). -/
structure Copier where
  urgent  : List Urgent
  jobs    : Vector (Option (Fin 4)) 16
  pointer : Fin 16
  copy    : Option Copy
  buffers : Vector (Option Buffer) 4
  deriving DecidableEq, Repr

/-- A copier burst ready to be offered: a buffer and, for a write, its data (R77). -/
inductive Offer where
  | write (buffer : Fin 4) (chunk : Nat) (data : List Dword)
  | read (buffer : Fin 4) (chunk : Nat)
  deriving DecidableEq, Repr

/-! ### The commit unit -/

/-- The action of a commit (R123). -/
inductive Action where
  | publish
  | abandon
  deriving DecidableEq, Repr

/-- A commit record (R123); the trigger is the master and the entry of its response list. -/
structure Commit where
  action  : Action
  tag     : BitVec 16
  master  : Option (Fin 16)
  trigger : Option (Fin 16 × Nat)
  deriving DecidableEq, Repr

/-- The commit in progress with its drain count (R123). -/
structure InProgress where
  commit : Commit
  drain  : Nat
  deriving DecidableEq, Repr

/-- The commit unit's state of one window (R123). -/
structure CommitState where
  queue   : List Commit
  current : Option InProgress
  fence   : Bool
  deriving DecidableEq, Repr

/-! ### The notice unit -/

/-- The reasons of denials and discards (R172). -/
inductive Reason where
  | badRequest
  | straddle
  | notLive
  | closing
  | halted
  | notProducer
  | slotExhausted
  | targetVisible
  | backfillFailed
  | reset
  | empty
  | incomplete
  | noSlot
  | queueFull
  deriving DecidableEq, Repr

/-- What a halt found to discard (R38). -/
inductive Discarded where
  | none
  | filling
  | sealed
  deriving DecidableEq, Repr

/-- The kinds of notice with the fields each carries (section 8.3). -/
inductive NoticeBody where
  | published (window : Fin 16) (slot : Fin 4) (generation : BitVec 32) (tag : BitVec 16)
  | advanced (window : Fin 16) (serial : BitVec 32) (tag : BitVec 16)
  | abandoned (window : Fin 16) (slot : Fin 4)
  | commitDiscarded (window : Fin 16) (reason : Reason) (master : Option (Fin 16)) (missing : Nat)
  | badCommit (window : Fin 16) (master : Fin 16)
  | writeDenied (window : Option (Fin 16)) (master : Fin 16) (reason : Reason) (addr : Addr)
  | readDenied (window : Option (Fin 16)) (master : Fin 16) (reason : Reason) (addr : Addr)
  | memoryFault (window : Fin 16) (master : Fin 16) (target : Nat) (kind : Kind)
  | viewTorn (window : Fin 16) (consumer : Fin 8)
  | viewReleased (window : Fin 16) (consumer : Fin 8)
  | backfillFailed (window : Fin 16) (block : Nat) (sealedLost : Bool)
  | windowHalted (window : Fin 16) (cause : HaltCause) (discarded : Discarded)
  | windowDrained (window : Fin 16)
  | resetDone
  deriving DecidableEq, Repr

/-- A posted notice with its timestamp (R139). -/
structure Notice where
  body      : NoticeBody
  timestamp : Micros
  deriving DecidableEq, Repr

/-- The state of the notice ring (R136). -/
inductive RingState where
  | unset
  | active
  | faulted
  deriving DecidableEq, Repr

/-- The definition of the notice ring (R136). -/
structure RingDef where
  base      : Addr
  entries   : Nat
  produced  : Addr
  consumed  : Addr
  threshold : Nat
  holdoff   : Nat
  deriving DecidableEq, Repr

/-- The holdoff timer: stopped, running since a start, or expired with its write-back not yet issued (R143). -/
inductive Holdoff where
  | stopped
  | running (start : Micros)
  | expired
  deriving DecidableEq, Repr

/-- The two kinds of notice write (R141). -/
inductive NoticeWrite where
  | record
  | writeBack (value : Nat)
  deriving DecidableEq, Repr

/-- The notice write in flight and whether it is stale (R137). -/
structure NoticeInFlight where
  write : NoticeWrite
  stale : Bool
  deriving DecidableEq, Repr

/-- The notice unit (R136 to R150). -/
structure NoticeUnit where
  ring        : RingState
  definition  : Option RingDef
  write       : Nat
  consumed    : Nat
  writtenBack : Nat
  sequence    : BitVec 16
  lost        : Nat
  pending     : List Notice
  mask        : BitVec 16
  indexError  : Bool
  holdoff     : Holdoff
  flush       : Bool
  owed        : Bool
  inFlight    : Option NoticeInFlight
  attn        : Bool
  deriving DecidableEq, Repr

/-! ### The management link -/

/-- The part state (R155). -/
inductive PartState where
  | running
  | resetting
  deriving DecidableEq, Repr

/-- The result of a write command (R154). -/
inductive Result where
  | accepted
  | refusedState
  | refusedParam
  | refusedBusy
  | refusedFrame
  deriving DecidableEq, Repr

/-- The result record (R154); `lastCommand` is none for NONE. -/
structure ResultRecord where
  lastCommand : Option Byte
  result      : Result
  param       : Nat
  sequence    : BitVec 8
  deriving DecidableEq, Repr

/-- An edge on an input pin of the link (R151): SSEL falls or rises, SCK rises with SDI at a level, SCK falls. -/
inductive LinkEdge where
  | sselFall
  | sckRise (sdi : Bool)
  | sckFall
  | sselRise
  deriving DecidableEq, Repr

/-- The frame in progress (R151): its complete bytes, the code byte first; the bits of its incomplete byte, the first
received first; the bytes SDO has still to carry, the one it carries now first and 0x00 when none is left (R152); and the
level that SDO is driven to. -/
structure Frame where
  bytes : List Byte
  bits  : List Bool
  out   : List Byte
  sdo   : Bool
  deriving DecidableEq, Repr

/-- The management link: part state, result record, the frame in progress (none: SSEL is high, or has not fallen since
the wait after a reset), and whether the link waits for SSEL to rise after a reset (R151). -/
structure Link where
  part      : PartState
  result    : ResultRecord
  frame     : Option Frame
  awaitRise : Bool
  deriving DecidableEq, Repr

/-! ### The whole part -/

/-- The role of a master in a window (R10). -/
inductive Role where
  | producer
  | consumer (consumer : Fin 8)
  | bystander
  deriving DecidableEq, Repr

/-- The state of the VS416. `pending`, `edges`, `draws` and `nextId` are the model's own (log 1, 8, 6, 5): `edges` are the
edges on the link's pins that the part has yet to take, the first to come first. `sent` is the response last sent on each
master's bus. -/
structure State where
  pending     : List Instr
  edges       : List LinkEdge
  draws       : Nat
  nextId      : Nat
  intake      : Vector (List Request) 16
  onBus       : Vector (List Request) 16
  responses   : Vector (List Entry) 16
  sent        : Vector (Option Response) 16
  places      : Vector (Option MemRequest) 32
  lastGranted : Contender
  windows     : Vector Window 16
  stallTimers : Vector (Option Timer) 16
  slots       : Vector (Option SlotUnit) 16
  rolls       : Vector (Option RollState) 16
  consumers   : Vector (Option Binding) 8
  views       : Vector (Vector (Option View) 8) 16
  copier      : Copier
  commits     : Vector CommitState 16
  notice      : NoticeUnit
  link        : Link
  timebase    : Micros
  deriving DecidableEq, Repr

/-- What could stop the part with a fault: nothing. The manual gives every command and event an effect (log 2); a
memory fault is an effect on the state (R19, R79, R148). -/
inductive Fault where
  deriving DecidableEq, Repr

/-- Why a command could be refused. -/
inductive Refusal where
  /-- Raised by an arm of `exec` whose command has no meaning yet; no arm raises it. Safe: the model stops. -/
  | notModelled (mnemonic : String)
  deriving DecidableEq, Repr

/-- R24: a window table entry after hard reset. -/
def Window.reset : Window :=
  { state := .undefined, definition := none, inFlight := 0, waiting := 0, haltCause := none }

/-- R73: the copier after hard reset. -/
def Copier.reset : Copier :=
  { urgent := [], jobs := Vector.replicate 16 none, pointer := 15, copy := none, buffers := Vector.replicate 4 none }

/-- R123: the commit unit's state of a window after hard reset and after ENABLE WINDOW. -/
def CommitState.reset : CommitState := { queue := [], current := none, fence := false }

/-- R150: the notice unit after hard reset, every kind enabled. -/
def NoticeUnit.reset : NoticeUnit :=
  { ring := .unset, definition := none, write := 0, consumed := 0, writtenBack := 0, sequence := 0, lost := 0,
    pending := [], mask := 0xFFFF, indexError := false, holdoff := .stopped, flush := false, owed := false,
    inFlight := none, attn := false }

/-- R154: the result record after hard reset. -/
def ResultRecord.reset : ResultRecord := { lastCommand := none, result := .accepted, param := 0, sequence := 0 }

/-- R166: the management link after hard reset, SSEL being high at the release of RESET_N (log 8). -/
def Link.reset : Link :=
  { part := .running, result := .reset, frame := none, awaitRise := false }

/-- The machine right after hard reset (R22, R24, R35, R42, R73, R90, R106, R109, R123, R150, R154, R162, R166). -/
def State.reset : State :=
  { pending := [], edges := [], draws := 0, nextId := 0,
    intake := Vector.replicate 16 [], onBus := Vector.replicate 16 [], responses := Vector.replicate 16 [],
    sent := Vector.replicate 16 none, places := Vector.replicate 32 none, lastGranted := .copier,
    windows := Vector.replicate 16 .reset, stallTimers := Vector.replicate 16 none,
    slots := Vector.replicate 16 none, rolls := Vector.replicate 16 none, consumers := Vector.replicate 8 none,
    views := Vector.replicate 16 (Vector.replicate 8 none), copier := .reset,
    commits := Vector.replicate 16 .reset, notice := .reset, link := .reset, timebase := 0 }

end Sys2Proof.Machine
end

