-- ==== Sys2Proof/Machine/Ops.lean ====
section
/-! DEFINITION. The named operations over the state that every block shares: access to the per-window and per-master
records, window geometry (R14, R24 to R31, R89), and the posting of notices (R139). -/

namespace Sys2Proof.Machine

/-- Replaces entry `i` of a table by `f` of it. -/
def upd {α : Type} {n : Nat} (v : Vector α n) (i : Fin n) (f : α → α) : Vector α n := v.set i (f v[i])

/-! ### Access -/

/-- The definition of a window, in every state other than UNDEFINED (R24). -/
def State.definition (s : State) (w : Fin 16) : Option Definition := s.windows[w].definition

/-- Changes one window table entry. -/
def State.updWindow (s : State) (w : Fin 16) (f : Window → Window) : State := { s with windows := upd s.windows w f }

/-- Changes the commit unit's state of one window. -/
def State.updCommits (s : State) (w : Fin 16) (f : CommitState → CommitState) : State :=
  { s with commits := upd s.commits w f }

/-- Changes the slot manager's state of one window, where it has one. -/
def State.updSlotUnit (s : State) (w : Fin 16) (f : SlotUnit → SlotUnit) : State :=
  { s with slots := upd s.slots w (Option.map f) }

/-- Changes the roll unit's state of one window, where it has one. -/
def State.updRoll (s : State) (w : Fin 16) (f : RollState → RollState) : State :=
  { s with rolls := upd s.rolls w (Option.map f) }

/-- The slot record `i` of window `w`, if it exists (R43). -/
def State.slot (s : State) (w : Fin 16) (i : Fin 4) : Option Slot :=
  match s.slots[w] with
  | none => none
  | some u => u.slots[i]

/-- Changes one slot record of one window, where it exists. -/
def State.updSlot (s : State) (w : Fin 16) (i : Fin 4) (f : Slot → Slot) : State :=
  s.updSlotUnit w (fun u => { u with slots := upd u.slots i (Option.map f) })

/-- The view record of consumer `c` in window `w`, if it exists (R109). -/
def State.view (s : State) (w : Fin 16) (c : Fin 8) : Option View := (s.views[w])[c]

/-- Changes one view record, where it exists. -/
def State.updView (s : State) (w : Fin 16) (c : Fin 8) (f : View → View) : State :=
  { s with views := upd s.views w (fun vs => upd vs c (Option.map f)) }

/-- Changes the notice unit. -/
def State.updNotice (s : State) (f : NoticeUnit → NoticeUnit) : State := { s with notice := f s.notice }

/-- Changes the copier. -/
def State.updCopier (s : State) (f : Copier → Copier) : State := { s with copier := f s.copier }

/-- Changes the management link. -/
def State.updLink (s : State) (f : Link → Link) : State := { s with link := f s.link }

/-- Changes the copy in progress, if there is one. -/
def State.updCopy (s : State) (f : Copy → Copy) : State :=
  s.updCopier (fun c => { c with copy := c.copy.map f })

/-- Runs `f` for every master in the order 0 to 15, the order in which the rules take waiting requests. -/
def forMasters (f : Fin 16 → State → State) (s : State) : State := masters.foldl (fun t m => f m t) s

/-- Runs `f` for every window in the order 0 to 15. -/
def forWindows (f : Fin 16 → State → State) (s : State) : State := windowNumbers.foldl (fun t w => f w t) s

/-- Runs `f` for every consumer in the order 0 to 7. -/
def forConsumers (f : Fin 8 → State → State) (s : State) : State := consumerNumbers.foldl (fun t c => f c t) s

/-! ### Response-list entries -/

/-- Whether an entry is in stage WAITING (R5). -/
def Entry.isWaiting (e : Entry) : Bool :=
  match e.stage with
  | .waiting _ => true
  | _ => false

/-- A master's current request: its entry in stage WAITING (R6). -/
def State.current (s : State) (m : Fin 16) : Option Entry := s.responses[m].find? Entry.isWaiting

/-- Changes the entry `id` of a master's response list. -/
def State.updEntry (s : State) (m : Fin 16) (id : Nat) (f : Entry → Entry) : State :=
  { s with responses := upd s.responses m (List.map (fun e => if e.id = id then f e else e)) }

/-- Whether a piece is not yet issued. -/
def Piece.unissued (p : Piece) : Bool := decide (p.stage = .unissued)

/-- No piece of the entry is issued: the request is within reach of the events that answer waits (R16). -/
def Entry.reachable (e : Entry) : Bool := e.pieces.all Piece.unissued

/-- A producer write of window `w`, not yet completed: the only writes of a window that enter WAITING are its producers'
(R51, R53, R93, R94). -/
def Entry.isWriteOf (e : Entry) (w : Fin 16) : Bool :=
  decide (e.window = some w) && decide (e.request.kind = .write)

/-- Whether the entry waits unmapped at the fence (R129). -/
def Entry.inFenceWait (e : Entry) : Bool := decide (e.stage = .waiting .fence)

/-- Whether the entry is in a slot wait (R65). -/
def Entry.inSlotWait (e : Entry) : Bool :=
  decide (e.stage = .waiting (.slot true)) || decide (e.stage = .waiting (.slot false))

/-- Whether a piece of the entry carries the condition. -/
def Entry.hasCond (e : Entry) (c : Cond) : Bool := e.pieces.any (fun p => decide (p.cond = c))

/-- The stall timer of a master stops (R35). -/
def stopTimer (m : Fin 16) (s : State) : State := { s with stallTimers := upd s.stallTimers m (fun _ => none) }

/-- The stall timer of a master starts with its window's stall limit as it stands (R35). -/
def startTimer (m : Fin 16) (w : Fin 16) (s : State) : State :=
  match s.definition w with
  | none => s
  | some d => { s with stallTimers := upd s.stallTimers m (fun _ => some ⟨s.timebase, d.limit⟩) }

/-- Whether a count that started at `start` has run for `limit` microseconds, measured modulo 2^32 (R162). -/
def elapsed (now start : Micros) (limit : Nat) : Bool := decide (limit ≤ (now - start).toNat)

/-! ### Window geometry -/

/-- The block or line size of a window: 256 B × 2^k (R25). -/
def Definition.blockSize (d : Definition) : Nat := 256 * 2 ^ d.sizeCode

/-- The number of blocks of a slotted window, or of virtual lines of a rolling one (R26, R89). -/
def Definition.units (d : Definition) : Nat :=
  match d.geometry with
  | .slotted blocks _ _ => blocks
  | .rolling top visible _ bottom _ => top + visible + bottom

/-- The length of a window's range in bytes (R26, R27). -/
def Definition.rangeLength (d : Definition) : Nat := d.units * d.blockSize

/-- The number of ring lines of a rolling window, R = V + S (R89). -/
def Definition.ring (d : Definition) : Nat :=
  match d.geometry with
  | .slotted _ _ _ => 0
  | .rolling _ visible staging _ _ => visible + staging

/-- The staging line count S of a rolling window (R27). -/
def Definition.staging (d : Definition) : Nat :=
  match d.geometry with
  | .slotted _ _ _ => 0
  | .rolling _ _ staging _ _ => staging

/-- The coverage policy of a slotted window (R26). -/
def Definition.isBackfill (d : Definition) : Bool :=
  match d.geometry with
  | .slotted _ .backfill _ => true
  | _ => false

/-- Whether a window is of kind SLOTTED (R25). -/
def Definition.isSlotted (d : Definition) : Bool :=
  match d.geometry with
  | .slotted _ _ _ => true
  | .rolling _ _ _ _ _ => false

/-- The target position of a rolling window at origin `o`: (o + V) mod R (R90). -/
def Definition.targetPosition (d : Definition) (o : Nat) : Nat :=
  match d.geometry with
  | .slotted _ _ _ => 0
  | .rolling _ visible staging _ _ => (o + visible) % (visible + staging)

/-- A run of bytes: its first address and its length. -/
abbrev Region := Nat × Nat

/-- Two regions have at least one byte in common (R1, R30). -/
def touches (a b : Region) : Bool := decide (max a.1 b.1 < min (a.1 + a.2) (b.1 + b.2))

/-- Region `a` lies wholly inside region `b`. -/
def liesInside (a b : Region) : Bool := decide (b.1 ≤ a.1) && decide (a.1 + a.2 ≤ b.1 + b.2)

/-- The byte range of a request (R1). -/
def requestRange (r : Request) : Region := (r.addr.toNat, 8 * r.beats)

/-- R7: the first and last bytes of the byte range lie in different aligned 4 KiB regions. -/
def crossesPage (r : Request) : Bool :=
  decide (r.addr.toNat / Config.page ≠ (r.addr.toNat + 8 * r.beats - 1) / Config.page)

/-- A window's range (section 1.3). -/
def Definition.range (d : Definition) : Region := (d.base.toNat, d.rangeLength)

/-- A window's range: none when it is UNDEFINED (section 1.3). -/
def State.range (s : State) (w : Fin 16) : Option Region :=
  if s.windows[w].state = .undefined then none else (s.definition w).map Definition.range

/-- The windows whose range a request touches, lowest-numbered first (R8). -/
def touchedWindows (r : Request) (s : State) : List (Fin 16) :=
  windowNumbers.filter (fun w => (s.range w).any (fun g => touches (requestRange r) g))

/-- The window inside whose range a request wholly lies, if there is one (R10). -/
def insideWindow (r : Request) (s : State) : Option (Fin 16) :=
  (touchedWindows r s).find? (fun w => (s.range w).any (fun g => liesInside (requestRange r) g))

/-- The 8-byte region of a watched or index word (R30). -/
def wordRegion (a : Addr) : Region := (a.toNat, 8)

/-- The guarded regions of a definition with the parameter index of each, in the order R30 compares them: range (3), slot
regions (15 to 18) or line region (16), and commit word (8). -/
def Definition.regions (d : Definition) : List (Nat × Region) :=
  (3, d.range) ::
  (match d.geometry with
    | .slotted blocks _ bases =>
      (bases.zipIdx 15).map (fun p => (p.2, (p.1.toNat, blocks * d.blockSize)))
    | .rolling top visible staging bottom base =>
      [(16, (base.toNat, (top + visible + staging + bottom) * d.blockSize))]) ++
  (match d.word with
    | none => []
    | some a => [(8, wordRegion a)])

/-- The three regions of a ring definition with their parameter indices (R30, R137). -/
def RingDef.regions (d : RingDef) : List (Nat × Region) :=
  [(1, (d.base.toNat, d.entries * 16)), (3, wordRegion d.produced), (4, wordRegion d.consumed)]

/-- The ring's guarded regions, while it is ACTIVE or FAULTED (R30). -/
def State.ringRegions (s : State) : List Region :=
  if s.notice.ring = .unset then [] else
    match s.notice.definition with
    | none => []
    | some d => d.regions.map Prod.snd

/-- The guarded regions of the windows that are not UNDEFINED, those of `except` left out (R30). -/
def State.windowRegions (s : State) (except : Option (Fin 16)) : List Region :=
  windowNumbers.flatMap (fun w =>
    if except = some w then [] else
    if s.windows[w].state = .undefined then [] else
      match s.definition w with
      | none => []
      | some d => d.regions.map Prod.snd)

/-- The index of the first of the numbered regions that overlaps one of `others` or one before it (R30). -/
def firstOverlap (others : List Region) : List (Nat × Region) → Option Nat
  | [] => none
  | (i, g) :: rest => if others.any (fun h => touches g h) then some i else firstOverlap (g :: others) rest

/-- The role of a master in a window of this definition (R10). -/
def State.role (s : State) (d : Definition) (m : Fin 16) : Role :=
  if d.producers.getLsbD m then .producer else
    match consumerNumbers.find? (fun (c : Fin 8) => d.consumers.getLsbD c && s.consumers[c].any (fun b => decide (b.master = m))) with
    | some c => .consumer c
    | none => .bystander

/-- An unmapped piece at the request's own address: also the single piece of a passthrough request (R12, R14). -/
def plainPiece (addr : Addr) (beats : Nat) (data : List Beat) (unit : Nat) : Piece :=
  { addr := addr, beats := beats, data := data, unit := unit, phys := addr, target := .memory, cond := .clear,
    stage := .unissued }

/-- The block or line in which a byte of a window's range lies (R48, R89). -/
def Definition.unitOf (d : Definition) (a : Nat) : Nat := (a - d.base.toNat) / d.blockSize

/-- The block or line of the first byte of a request (R113). -/
def firstUnit (d : Definition) (r : Request) : Nat := d.unitOf r.addr.toNat

/-- The block or line of the last byte of a request (R113). -/
def lastUnit (d : Definition) (r : Request) : Nat := d.unitOf (r.addr.toNat + 8 * r.beats - 1)

/-- The pieces of a window request, cut at the boundary between two blocks or lines (R14). -/
def cut (d : Definition) (r : Request) : List Piece :=
  let b := firstUnit d r
  if b = lastUnit d r then [plainPiece r.addr r.beats r.data b] else
    let n := (d.base.toNat + (b + 1) * d.blockSize - r.addr.toNat) / 8
    [plainPiece r.addr n (r.data.take n) b,
     plainPiece (r.addr + BitVec.ofNat 40 (8 * n)) (r.beats - n) (r.data.drop n) (b + 1)]

/-! ### Notices -/

/-- The kind code of a notice (R172). -/
def NoticeBody.code : NoticeBody → Nat
  | .published _ _ _ _ => 1
  | .advanced _ _ _ => 2
  | .abandoned _ _ => 3
  | .commitDiscarded _ _ _ _ => 4
  | .badCommit _ _ => 5
  | .writeDenied _ _ _ _ => 6
  | .readDenied _ _ _ _ => 7
  | .memoryFault _ _ _ _ => 8
  | .viewTorn _ _ => 9
  | .viewReleased _ _ => 10
  | .backfillFailed _ _ _ => 11
  | .windowHalted _ _ _ => 12
  | .windowDrained _ => 13
  | .resetDone => 14

/-- The taking of a posting by the notice unit, in the order of R139. -/
def NoticeUnit.take (n : NoticeUnit) (b : NoticeBody) (now : Micros) : NoticeUnit :=
  if n.ring ≠ .active then n else
  if n.mask.getLsbD b.code = false then n else
  if Config.pendingDepth ≤ n.pending.length then { n with lost := min Config.lostMax (n.lost + 1) } else
    { n with pending := n.pending ++ [⟨b, now⟩] }

/-- A block posts a notice, stamped with the timebase count (R139). -/
def post (b : NoticeBody) (s : State) : State := s.updNotice (fun n => n.take b s.timebase)

/-- The notice of a refused request: READ_DENIED or WRITE_DENIED (R13, R64). -/
def deniedNotice (w : Option (Fin 16)) (m : Fin 16) (reason : Reason) (r : Request) : NoticeBody :=
  match r.kind with
  | .read => .readDenied w m reason r.addr
  | .write => .writeDenied w m reason r.addr

/-- The DENIED answer, every beat of a READ zero (R20). -/
def deniedResponse (r : Request) : Response :=
  match r.kind with
  | .read => ⟨.denied, List.replicate r.beats 0⟩
  | .write => ⟨.denied, []⟩

/-- The window's waiting request count falls by one (R36). -/
def lowerWaiting (w : Fin 16) (s : State) : State := s.updWindow w (fun x => { x with waiting := x.waiting - 1 })

/-- The drain count of the window's commit in progress falls by one (R130). At 0 the commit is due, and COMMIT_TAKE takes it
(log 11; within a larger take: log 25). -/
def lowerDrain (w : Fin 16) (s : State) : State :=
  s.updCommits w (fun c => { c with current := c.current.map (fun p => { p with drain := p.drain - 1 }) })

end Sys2Proof.Machine
end

