-- ==== Sys2Proof/Machine/Operands.lean ====
section
/-! DEFINITION. The byte layouts of the Formats chapter, both ways: little-endian fields (R167), command codes and frame
lengths (R168), parameter blocks (R169), the words and records in memory (R171, R172), and the checks a definition's own
fields are put to (R28). -/

namespace Sys2Proof.Machine

/-! ### Little-endian fields -/

/-- The value of a little-endian field (R167). -/
def leNat : List Byte → Nat
  | [] => 0
  | b :: rest => b.toNat + 256 * leNat rest

/-- The `size` bytes of a little-endian field (R167). -/
def leBytes : Nat → Nat → List Byte
  | 0, _ => []
  | size + 1, x => BitVec.ofNat 8 x :: leBytes size (x / 256)

/-- The little-endian field of `size` bytes at an offset of a frame (R169). -/
def field (frame : List Byte) (offset size : Nat) : Nat := leNat ((frame.drop offset).take size)

/-- The address at an offset of a frame (R167). -/
def addrField (frame : List Byte) (offset : Nat) : Addr := BitVec.ofNat 40 (field frame offset 5)

/-- The commit word at an offset of a frame: none for five bytes of 0xFF (R167). -/
def wordField (frame : List Byte) (offset : Nat) : Option Addr :=
  if addrField frame offset = BitVec.allOnes 40 then none else some (addrField frame offset)

/-- The five bytes of a commit word or of none (R167). -/
def wordBytes : Option Addr → List Byte
  | none => leBytes 5 (2 ^ 40 - 1)
  | some a => leBytes 5 a.toNat

/-- The byte of a window, master, slot or consumer, 0xFF for none (R167). -/
def numberByte {n : Nat} : Option (Fin n) → Byte
  | none => 0xFF
  | some x => BitVec.ofNat 8 x.val

/-- The byte of a yes-or-no field: 0x00 for no, and 0x01 for yes (R167, R170; of halt on fault by log 24). -/
def flagByte (b : Bool) : Byte := if b then 1 else 0

/-- The number below `n` that a parameter byte names, if it does. -/
def number (n : Nat) (x : Nat) : Option (Fin n) := if h : x < n then some ⟨x, h⟩ else none

/-! ### Command codes and frame lengths -/

/-- The code byte of each link command (R168). -/
def codeDefineWindow : Byte := 0x01
def codeSetCommitWord : Byte := 0x02
def codeUndefineWindow : Byte := 0x03
def codeEnableWindow : Byte := 0x04
def codeDrainWindow : Byte := 0x05
def codeResumeWindow : Byte := 0x06
def codeSetStallLimit : Byte := 0x07
def codePublish : Byte := 0x08
def codeAbandon : Byte := 0x09
def codeBindConsumer : Byte := 0x0A
def codeUnbindConsumer : Byte := 0x0B
def codeSetNoticeRing : Byte := 0x0C
def codeSetNoticeMask : Byte := 0x0D
def codeFlushNotices : Byte := 0x0E
def codeSoftReset : Byte := 0x0F
def codeReadWindowDefinition : Byte := 0x81
def codeReadWindowStatus : Byte := 0x82
def codeReadViewStatus : Byte := 0x83
def codeReadConsumer : Byte := 0x84
def codeReadRingStatus : Byte := 0x85
def codeReadPartStatus : Byte := 0x86
def codeReadResult : Byte := 0x87

/-- The length check of a DEFINE WINDOW frame, its code byte counted (R153, R168, R169). -/
def defineLengthOk (frame : List Byte) : Bool :=
  let n := frame.length
  if n < 3 then false else
  if field frame 2 1 = 2 then decide (n = 32) else
  if field frame 2 1 ≠ 1 then true else
  if n < 25 then false else
  let slots := field frame 24 1
  if 2 ≤ slots ∧ slots ≤ 4 then decide (n = 26 + 5 * slots) else true

/-! ### The parameters of DEFINE WINDOW -/

/-- R169: the commit trigger a code names. -/
def triggerOf : Nat → Trigger
  | 1 => .commitWord
  | 2 => .closingWrite
  | _ => .linkOnly

/-- R169: the code of a commit trigger. -/
def triggerCode : Trigger → Nat
  | .commitWord => 1
  | .closingWrite => 2
  | .linkOnly => 3

/-- R169: the exhaustion policy a code names. -/
def policyOf : Nat → Policy
  | 1 => .stall
  | _ => .reclaim

/-- R169: the code of an exhaustion policy. -/
def policyCode : Policy → Nat
  | .stall => 1
  | .reclaim => 2

/-- R169: the coverage policy a code names. -/
def coverageOf : Nat → Coverage
  | 1 => .asIs
  | 2 => .requireFull
  | _ => .backfill

/-- R169: the code of a coverage policy. -/
def coverageCode : Coverage → Nat
  | .asIs => 1
  | .requireFull => 2
  | .backfill => 3

/-- The index of the first check that fails. -/
def firstFailing (checks : List (Bool × Nat)) : Option Nat := (checks.find? (fun c => !c.1)).map Prod.snd

/-- A parameter lies in a range. -/
def within (lo x hi : Nat) : Bool := decide (lo ≤ x) && decide (x ≤ hi)

/-- A region starts at a multiple of the block size and ends within the 40-bit address space (R28). -/
def regionFits (base size length : Nat) : Bool :=
  decide (base % size = 0) && decide (base + length ≤ Config.addressSpace)

/-- The checks of R28 on each parameter's own range and alignment, in its order: index 3 after index 4, and the counts
of the kind used as given where a region's end is computed before their own check (log 17). -/
def fieldChecks (frame : List Byte) : List (Bool × Nat) :=
  let slotted := decide (field frame 2 1 = 1)
  let size := 256 * 2 ^ field frame 8 1
  let a := field frame 23 1
  let b := field frame 24 1
  let c := field frame 25 1
  let e := field frame 26 1
  let units := if slotted then a else a + b + e
  [(within 1 (field frame 2 1) 2, 2),
   (within 0 (field frame 8 1) 8, 4),
   (regionFits (field frame 3 5) size (units * size), 3),
   (decide (field frame 11 2 < 256), 6),
   (within 1 (field frame 13 1) 3, 7),
   ((wordField frame 14).all (fun x => decide (x.toNat % 8 = 0)), 8),
   (within 1 (field frame 19 1) 2, 9)] ++
  (if slotted then
    [(within 1 a 64, 12), (within 2 b 4, 13), (within 1 c 3, 14)] ++
    (List.range b).map (fun s => (regionFits (field frame (26 + 5 * s) 5) size (a * size), 15 + s))
  else
    [(within 0 a 8, 12), (within 2 b 48, 13), (within 1 c 8, 14), (within 0 e 8, 15),
     (regionFits (field frame 27 5) size ((a + b + c + e) * size), 16)])

/-- The definition a DEFINE WINDOW frame carries (R169); a stall limit of 0 is taken as 1000 (R25). -/
def definitionOf (frame : List Byte) : Definition :=
  { base := addrField frame 3
    sizeCode := field frame 8 1
    producers := BitVec.ofNat 16 (field frame 9 2)
    consumers := BitVec.ofNat 8 (field frame 11 2)
    trigger := triggerOf (field frame 13 1)
    word := wordField frame 14
    policy := policyOf (field frame 19 1)
    limit := if field frame 20 2 = 0 then 1000 else field frame 20 2
    haltOnFault := decide (field frame 22 1 ≠ 0)
    geometry :=
      if field frame 2 1 = 1 then
        .slotted (field frame 23 1) (coverageOf (field frame 25 1))
          ((List.range (field frame 24 1)).map (fun s => addrField frame (26 + 5 * s)))
      else
        .rolling (field frame 23 1) (field frame 24 1) (field frame 25 1) (field frame 26 1) (addrField frame 27) }

/-- The bytes 2 to 45 of a definition in the layout of DEFINE WINDOW (R169, R170), not yet filled up with 0. DESIGN CHOICE
(log 24): halt on fault = yes is reported as 0x01, whichever nonzero byte DEFINE WINDOW gave. -/
def definitionBytes (d : Definition) : List Byte :=
  [BitVec.ofNat 8 (if d.isSlotted then 1 else 2)] ++ leBytes 5 d.base.toNat ++ [BitVec.ofNat 8 d.sizeCode] ++
  leBytes 2 d.producers.toNat ++ leBytes 2 d.consumers.toNat ++ [BitVec.ofNat 8 (triggerCode d.trigger)] ++
  wordBytes d.word ++ [BitVec.ofNat 8 (policyCode d.policy)] ++ leBytes 2 d.limit ++ [flagByte d.haltOnFault] ++
  match d.geometry with
  | .slotted blocks coverage bases =>
    [BitVec.ofNat 8 blocks, BitVec.ofNat 8 bases.length, BitVec.ofNat 8 (coverageCode coverage)] ++
    bases.flatMap (fun a => leBytes 5 a.toNat)
  | .rolling top visible staging bottom base =>
    [BitVec.ofNat 8 top, BitVec.ofNat 8 visible, BitVec.ofNat 8 staging, BitVec.ofNat 8 bottom] ++ leBytes 5 base.toNat

/-- The DEFINE WINDOW frame that would give a window its present definition: what check 4 of R34 is made on. -/
def definitionFrame (w : Fin 16) (d : Definition) : List Byte :=
  codeDefineWindow :: BitVec.ofNat 8 w.val :: definitionBytes d

/-! ### Words and records in memory -/

/-- The 8 bytes of a word as one beat with every lane enabled (R3, R167). -/
def beatOf (bytes : List Byte) : Beat := ⟨BitVec.ofNat 64 (leNat bytes), 0xFF⟩

/-- The beats of a memory write of `n` beats made of bytes (R3). -/
def beatsOf : Nat → List Byte → List Beat
  | 0, _ => []
  | n + 1, bytes => beatOf (bytes.take 8) :: beatsOf n (bytes.drop 8)

/-- The tag a commit word carries: bytes 0 to 1 (R171). -/
def commitTag (b : Beat) : BitVec 16 := BitVec.ofNat 16 b.data.toNat

/-- The action a commit word carries: byte 2 (R171). -/
def commitAction (b : Beat) : Option Action :=
  match b.data.toNat / 2 ^ 16 % 256 with
  | 1 => some .publish
  | 2 => some .abandon
  | _ => none

/-- Every byte lane of a beat is enabled. -/
def lanesFull (b : Beat) : Bool := decide (b.lanes = 0xFF)

/-- The code of a reason (R172). -/
def reasonCode : Reason → Nat
  | .badRequest => 1
  | .straddle => 2
  | .notLive => 3
  | .closing => 4
  | .halted => 5
  | .notProducer => 6
  | .slotExhausted => 7
  | .targetVisible => 8
  | .backfillFailed => 9
  | .reset => 10
  | .empty => 11
  | .incomplete => 12
  | .noSlot => 13
  | .queueFull => 14

/-- The code of a halt cause (R170, R172). -/
def causeCode : HaltCause → Nat
  | .memfault => 1
  | .backfillFailed => 2

/-- The code of what a halt discarded (R172). -/
def discardedCode : Discarded → Nat
  | .none => 0
  | .filling => 1
  | .sealed => 2

/-- The 8 payload bytes of a notice record (R172). -/
def payload : NoticeBody → List Byte
  | .published w i g t => [numberByte (some w), numberByte (some i)] ++ leBytes 2 t.toNat ++ leBytes 4 g.toNat
  | .advanced w n t => [numberByte (some w), 0] ++ leBytes 2 t.toNat ++ leBytes 4 n.toNat
  | .abandoned w i => [numberByte (some w), numberByte (some i), 0, 0, 0, 0, 0, 0]
  | .commitDiscarded w reason m missing =>
    [numberByte (some w), BitVec.ofNat 8 (reasonCode reason), numberByte m, BitVec.ofNat 8 missing, 0, 0, 0, 0]
  | .badCommit w m => [numberByte (some w), numberByte (some m), 0, 0, 0, 0, 0, 0]
  | .writeDenied w m reason a =>
    [numberByte w, numberByte (some m), BitVec.ofNat 8 (reasonCode reason)] ++ leBytes 5 a.toNat
  | .readDenied w m reason a =>
    [numberByte w, numberByte (some m), BitVec.ofNat 8 (reasonCode reason)] ++ leBytes 5 a.toNat
  | .memoryFault w m target kind =>
    [numberByte (some w), numberByte (some m), BitVec.ofNat 8 target, if kind = .read then 1 else 2, 0, 0, 0, 0]
  | .viewTorn w c => [numberByte (some w), numberByte (some c), 0, 0, 0, 0, 0, 0]
  | .viewReleased w c => [numberByte (some w), numberByte (some c), 0, 0, 0, 0, 0, 0]
  | .backfillFailed w b lost => [numberByte (some w), BitVec.ofNat 8 b, flagByte lost, 0, 0, 0, 0, 0]
  | .windowHalted w cause d =>
    [numberByte (some w), BitVec.ofNat 8 (causeCode cause), BitVec.ofNat 8 (discardedCode d), 0, 0, 0, 0, 0]
  | .windowDrained w => [numberByte (some w), 0, 0, 0, 0, 0, 0, 0]
  | .resetDone => [0, 0, 0, 0, 0, 0, 0, 0]

/-- The 16 bytes of a notice record with the lost count and sequence number of its issue (R142, R172). -/
def recordBytes (n : Notice) (lost : Nat) (sequence : BitVec 16) : List Byte :=
  [BitVec.ofNat 8 n.body.code, BitVec.ofNat 8 lost] ++ leBytes 2 sequence.toNat ++ leBytes 4 n.timestamp.toNat ++
  payload n.body

/-- The 8 bytes of the produced-index word (R171). -/
def producedBytes (value : Nat) : List Byte := leBytes 2 value ++ [0, 0, 0, 0, 0, 0]

/-- Data returned by the memory side, as exactly the beats that were asked for (R2, log 9). -/
def fitBeats (n : Nat) (data : List Dword) : List Dword := (List.range n).map (fun i => data[i]?.getD (Config.missingBeat i))

end Sys2Proof.Machine
end

