-- ==== Sys2Proof/Machine/Flags.lean ====
section
/-! DEFINITION. The conditions and flags of the notice unit: its index quantities (R138), the write-back conditions
(R143), INDEX_ERROR (R145) and ATTN (R147). -/

namespace Sys2Proof.Machine

/-- How far index `a` lies beyond index `b` around a ring of `entries` (R138). -/
def indexGap (entries a b : Nat) : Nat := (a + entries - b) % entries

/-- The number of unconsumed records (R138). -/
def NoticeUnit.unconsumed (n : NoticeUnit) (d : RingDef) : Nat := indexGap d.entries n.write n.consumed

/-- The number of unannounced records (R138). -/
def NoticeUnit.unannounced (n : NoticeUnit) (d : RingDef) : Nat := indexGap d.entries n.write n.writtenBack

/-- The ring is full when the unconsumed records number entries − 1 (R138). -/
def NoticeUnit.full (n : NoticeUnit) (d : RingDef) : Bool := decide (n.unconsumed d = d.entries - 1)

/-- Whether ATTN is to be asserted (R147). -/
def NoticeUnit.attention (n : NoticeUnit) : Bool :=
  match n.ring with
  | .unset => false
  | .faulted => true
  | .active => decide (n.writtenBack ≠ n.consumed)

/-- ATTN follows its condition at an event that changes it (R147). -/
def NoticeUnit.driveAttn (n : NoticeUnit) : NoticeUnit := { n with attn := n.attention }

/-- Whether a write-back is due: one of the five conditions of R143 while the ring is ACTIVE. -/
def NoticeUnit.writeBackDue (n : NoticeUnit) (d : RingDef) : Bool :=
  decide (n.ring = .active) &&
  (decide (d.threshold ≤ n.unannounced d) ||
   (decide (d.holdoff = 0) && decide (0 < n.unannounced d)) ||
   (decide (n.holdoff = .expired) && decide (0 < n.unannounced d)) ||
   (n.full d && decide (0 < n.unannounced d)) ||
   n.flush)

/-- Whether a record write is possible: ring ACTIVE, not full, a notice pending (R141). -/
def NoticeUnit.recordPossible (n : NoticeUnit) (d : RingDef) : Bool :=
  decide (n.ring = .active) && !n.full d && !n.pending.isEmpty

/-- The consumed-index value `v` lies in the cyclic range from the consumed index to the write index (R145). -/
def NoticeUnit.acceptsIndex (n : NoticeUnit) (d : RingDef) (v : Nat) : Bool :=
  decide (v < d.entries) && decide (indexGap d.entries v n.consumed ≤ indexGap d.entries n.write n.consumed)

/-- The taking of a store to the consumed-index word (R145). -/
def NoticeUnit.takeIndex (n : NoticeUnit) (d : RingDef) (b : Beat) : NoticeUnit :=
  if lanesFull b = false then { n with indexError := true } else
  if n.acceptsIndex d b.data.toNat then ({ n with consumed := b.data.toNat }).driveAttn else
    { n with indexError := true }

/-- Entry into FAULTED at a MEMFAULT on a notice write that is not stale (R148). -/
def NoticeUnit.fault (n : NoticeUnit) : NoticeUnit :=
  ({ n with ring := .faulted, pending := [], holdoff := .stopped, flush := false }).driveAttn

/-- A record write completes DONE: the write index and the sequence number move, and the holdoff timer starts where the
unannounced records rise from 0 to 1 and the holdoff is above 0 (R142, R143). -/
def NoticeUnit.recordDone (n : NoticeUnit) (d : RingDef) (now : Micros) : NoticeUnit :=
  { n with
    write := (n.write + 1) % d.entries
    sequence := n.sequence + 1
    holdoff := if 0 < d.holdoff ∧ n.unannounced d = 0 then .running now else n.holdoff }

/-- A write-back completes DONE (R144, R147). -/
def NoticeUnit.writeBackDone (n : NoticeUnit) (value : Nat) : NoticeUnit := ({ n with writtenBack := value }).driveAttn

end Sys2Proof.Machine
end

