-- ==== Sys2Proof/Machine/Copier.lean ====
section
/-! DEFINITION. The copier: its choice of the next block (R76), the urgent list (R75), its bursts (R77), and the dropping
of a window's jobs (R84). What a burst completion does is in Machine/CopierEvents.lean. -/

namespace Sys2Proof.Machine

/-- What a FILLING or SEALED slot holds (R43). -/
def Slot.work (x : Slot) : Option Work :=
  match x.state with
  | .filling k => some k
  | .sealed k _ => some k
  | _ => none

/-- Changes what a FILLING or SEALED slot holds. -/
def Slot.updWork (f : Work → Work) (x : Slot) : Slot :=
  match x.state with
  | .filling k => { x with state := .filling (f k) }
  | .sealed k tag => { x with state := .sealed (f k) tag }
  | _ => x

/-- The work record of slot `i` of window `w`, if it is FILLING or SEALED. -/
def State.work (s : State) (w : Fin 16) (i : Fin 4) : Option Work := (s.slot w i).bind Slot.work

/-- The block map entry of a block of slot `i`, if the slot has a map (R69). -/
def State.blockState (s : State) (w : Fin 16) (i : Fin 4) (b : Nat) : Option BlockState :=
  (s.work w i).bind (fun k => k.map[b]?)

/-- Sets one block map entry of slot `i`, where the slot has a map (R69). -/
def setBlock (w : Fin 16) (i : Fin 4) (b : Nat) (x : BlockState) (s : State) : State :=
  s.updSlot w i (Slot.updWork (fun k => { k with map := k.map.set b x }))

/-- The slot has at least one block in one of the given states. -/
def Work.has (k : Work) (p : BlockState → Bool) : Bool := k.map.any p

/-- Whether an entry of a map is NEEDS_COPY. -/
def BlockState.isNeedsCopy (x : BlockState) : Bool := decide (x = .needsCopy)

/-- Whether an entry of a map is NEEDS_COPY or COPYING, its block not yet brought across (R69). -/
def BlockState.uncopied (x : BlockState) : Bool := decide (x = .needsCopy) || decide (x = .copying)

/-- A window is a rotation candidate while it has a backfill job whose slot holds a NEEDS_COPY block (R73). -/
def isCandidate (s : State) (w : Fin 16) : Bool :=
  match s.copier.jobs[w] with
  | none => false
  | some i => (s.work w i).any (fun k => k.has BlockState.isNeedsCopy)

/-- Starts the copy of a block, its backfill source being the slot's (R76). -/
def startCopy (w : Fin 16) (i : Fin 4) (b : Nat) (s : State) : State :=
  match (s.work w i).bind Work.source with
  | none => s
  | some src =>
    (setBlock w i b .copying s).updCopier (fun c =>
      { c with
        copy := some
          { window := w, source := src, dest := i, block := b, attempt := .first, failed := false, dropped := false,
            next := 0, written := 0 } })

/-- The windows in the order that follows the rotation pointer, ending with the pointer's own (R76). -/
def rotationOrder (pointer : Fin 16) : List (Fin 16) := windowNumbers.map (fun k => pointer + 1 + k)

/-- The lowest-numbered NEEDS_COPY block of a map (R76). -/
def Work.nextBlock (k : Work) : Nat := k.map.findIdx BlockState.isNeedsCopy

/-- The copier chooses and starts its next block copy whenever it has none, the part is RUNNING and work exists (R76). -/
def kickCopier (s : State) : State :=
  if s.link.part ≠ .running then s else
  match s.copier.copy with
  | some _ => s
  | none =>
    match s.copier.urgent with
    | u :: rest => startCopy u.window u.slot u.block (s.updCopier (fun c => { c with urgent := rest }))
    | [] =>
      match (rotationOrder s.copier.pointer).find? (isCandidate s) with
      | none => s
      | some w =>
        match s.copier.jobs[w] with
        | none => s
        | some i =>
          match s.work w i with
          | none => s
          | some k => startCopy w i k.nextBlock (s.updCopier (fun c => { c with pointer := w }))

/-- Adds a block to the tail of the urgent list unless the list already holds it; an idle copier then chooses (R75,
R76). A copier stopped by a soft reset takes no entry (R88). -/
def addUrgent (u : Urgent) (s : State) : State :=
  if s.link.part = .resetting ∨ u ∈ s.copier.urgent then s else kickCopier (s.updCopier (fun c => { c with urgent := c.urgent ++ [u] }))

/-- The first piece of a write that waits on a NEEDS_COPY block has its block listed (R75). -/
def listFirstNeedsCopy (w : Fin 16) (i : Fin 4) (pieces : List Piece) (s : State) : State :=
  match pieces.find? (fun p => decide (p.cond = .copyWait) && decide (s.blockState w i p.unit = some .needsCopy)) with
  | none => s
  | some p => addUrgent ⟨w, i, p.unit⟩ s

/-- Creates the backfill job of a new FILLING slot; an idle copier then chooses (R74, R76). A copier stopped by a soft
reset takes no job, so that the jobs stay empty while the part is RESETTING (R88; log 18). -/
def createJob (w : Fin 16) (i : Fin 4) (s : State) : State :=
  if s.link.part = .resetting then s else kickCopier (s.updCopier (fun c => { c with jobs := upd c.jobs w (fun _ => some i) }))

/-- Removes a window's backfill job (R74). -/
def removeJob (w : Fin 16) (s : State) : State :=
  s.updCopier (fun c => { c with jobs := upd c.jobs w (fun _ => none) })

/-- Whether the burst of a buffer is in flight (R77). -/
def Buffer.inFlight (b : Buffer) : Bool :=
  match b.stage with
  | .full _ => false
  | _ => true

/-- The number of copier bursts in flight (R77). -/
def Copier.burstsInFlight (c : Copier) : Nat := bufferNumbers.countP (fun (i : Fin 4) => c.buffers[i].any Buffer.inFlight)

/-- Empties one burst buffer. -/
def Copier.clearBuffer (c : Copier) (i : Fin 4) : Copier := { c with buffers := upd c.buffers i (fun _ => none) }

/-- Empties the buffers whose write is not issued: no further burst of the attempt is (R79, R84). -/
def Copier.dropFull (c : Copier) : Copier :=
  { c with buffers := c.buffers.map (fun b => b.filter Buffer.inFlight) }

/-- The copy in progress becomes none, with every buffer empty. -/
def Copier.endCopy (c : Copier) : Copier := { c with copy := none, buffers := Vector.replicate 4 none }

/-- The number of chunks of a block (R76). -/
def Definition.chunks (d : Definition) : Nat := d.blockSize / Config.chunkBytes

/-- A dropped copy with no burst in flight ends without effect; a block still COPYING in a FILLING slot returns to
NEEDS_COPY, and the copier chooses its next block (R84). -/
def endDropped (s : State) : State :=
  match s.copier.copy with
  | none => s
  | some c =>
    if c.dropped = false then s else
    if s.copier.burstsInFlight ≠ 0 then s else
    let t :=
      match s.slot c.window c.dest with
      | some { state := .filling k, .. } =>
        if k.map[c.block]? = some BlockState.copying then setBlock c.window c.dest c.block .needsCopy s else s
      | _ => s
    kickCopier (t.updCopier Copier.endCopy)

/-- Removes a window's urgent entries and backfill job and marks its copy in progress dropped (R84). -/
def dropMarks (w : Fin 16) (s : State) : State :=
  (removeJob w s).updCopier (fun c =>
    match c.copy with
    | none => { c with urgent := c.urgent.filter (fun u => decide (u.window ≠ w)) }
    | some y =>
      if y.window = w then
        ({ c with urgent := c.urgent.filter (fun u => decide (u.window ≠ w)), copy := some { y with dropped := true } }).dropFull
      else { c with urgent := c.urgent.filter (fun u => decide (u.window ≠ w)) })

/-- Drops a window's jobs; a dropped copy with nothing in flight ends at once (R84). -/
def dropJobs (w : Fin 16) (s : State) : State := endDropped (dropMarks w s)

/-- Whether the copier has work for a window: an urgent entry, a rotation candidate or the copy in progress (R41, R73). -/
def copierWorksFor (s : State) (w : Fin 16) : Bool :=
  s.copier.urgent.any (fun u => decide (u.window = w)) || isCandidate s w ||
  s.copier.copy.any (fun c => decide (c.window = w))

/-- The data of a full buffer. -/
def Buffer.fullData (b : Buffer) : Option (List Dword) :=
  match b.stage with
  | .full data => some data
  | _ => none

/-- The full buffer of the lowest-numbered chunk among some buffers. -/
def lowestFull (c : Copier) : List (Fin 4) → Option (Fin 4 × Buffer)
  | [] => none
  | i :: rest =>
    match c.buffers[i] with
    | none => lowestFull c rest
    | some b =>
      if b.fullData = none then lowestFull c rest else
      match lowestFull c rest with
      | none => some (i, b)
      | some (j, b') => if b.chunk ≤ b'.chunk then some (i, b) else some (j, b')

/-- What the copier offers the memory port: the write burst of the lowest-numbered full chunk, else the read burst of the
next unread chunk into an empty buffer, while fewer than 4 bursts are in flight (R17, R77). DESIGN CHOICE (log 23): of
several empty buffers it is the lowest-numbered, where R77 says "an empty buffer". -/
def copierOffer (s : State) : Option Offer :=
  match s.copier.copy with
  | none => none
  | some y =>
    if y.dropped = true ∨ y.failed = true ∨ 4 ≤ s.copier.burstsInFlight then none else
    match lowestFull s.copier bufferNumbers with
    | some (i, b) => b.fullData.map (fun data => .write i b.chunk data)
    | none =>
      match bufferNumbers.find? (fun (i : Fin 4) => decide (s.copier.buffers[i] = none)), s.definition y.window with
      | some i, some d => if y.next < d.chunks then some (.read i y.next) else none
      | _, _ => none

end Sys2Proof.Machine
end

