-- ==== Sys2Proof/Machine/Slots.lean ====
section
/-! DEFINITION. The slot manager: mapping and counts (R48 to R51), allocation (R46, R47), retirement (R61, R62), discard
(R63) and the timers of slot waits (R65). Publication, which moves views, is in Machine/Publication.lean. -/

namespace Sys2Proof.Machine

/-! ### Mapping -/

/-- The physical start of slot `i` (R26). -/
def Definition.slotBase (d : Definition) (i : Fin 4) : Addr :=
  match d.geometry with
  | .slotted _ _ bases => bases.getD i.val 0
  | .rolling _ _ _ _ _ => 0

/-- A piece mapped to slot `i`: physical address slot base + (piece address − virtual base) (R48). -/
def mapToSlot (d : Definition) (i : Fin 4) (p : Piece) : Piece :=
  { p with phys := d.slotBase i + (p.addr - d.base), target := .slot i }

/-- A producer write piece mapped to the FILLING slot `i`, with a copy wait when its block is NEEDS_COPY or COPYING
(R51). -/
def mapWritePiece (d : Definition) (k : Work) (i : Fin 4) (p : Piece) : Piece :=
  { mapToSlot d i p with cond := if (k.map.getD p.unit .notWritten).uncopied then .copyWait else .clear }

/-- The slot a producer's read piece is mapped to (R50, R72). -/
def producerReadSlot (u : SlotUnit) (k : Option Work) (p : Piece) : Fin 4 :=
  match u.filling, k with
  | some f, some k => if (k.map.getD p.unit .notWritten).uncopied then k.source.getD u.front else f
  | _, _ => u.front

/-- Each captured piece adds 1 to its slot's waiting count (R49). -/
def captureSlots (w : Fin 16) (pieces : List Piece) (s : State) : State :=
  pieces.foldl (fun t p =>
    match p.target with
    | .slot i => t.updSlot w i (fun x => { x with waiting := x.waiting + 1 })
    | _ => t) s

/-- The byte at an address lies in a request's byte range, whatever its lane enables (R1). -/
def includesByte (r : Request) (a : Nat) : Bool :=
  decide (r.addr.toNat ≤ a) && decide (a < r.addr.toNat + 8 * r.beats)

/-- A producer write of a slotted window is a closing write when the trigger is CLOSING_WRITE and its range includes the
last byte of the window's range (R125). -/
def closesSlotted (d : Definition) (r : Request) : Bool :=
  decide (d.trigger = .closingWrite) && includesByte r (d.base.toNat + d.rangeLength - 1)

/-- Maps a master's waiting write to the FILLING slot `i` (R51, R47): its pieces are captured, its block is listed with
the copier, and a stall timer stops. -/
def mapWaitingToSlot (m w : Fin 16) (i : Fin 4) (s : State) : State :=
  match s.current m, s.definition w, s.work w i with
  | some e, some d, some k =>
    let pieces := (cut d e.request).map (mapWritePiece d k i)
    let t := s.updEntry m e.id (fun x =>
      { x with stage := .waiting .mapped, pieces := pieces, closing := closesSlotted d e.request })
    listFirstNeedsCopy w i pieces (captureSlots w pieces (stopTimer m t))
  | _, _, _ => s

/-! ### Allocation -/

/-- The lowest-numbered FREE slot (R46). -/
def SlotUnit.lowestFree (u : SlotUnit) : Option (Fin 4) :=
  slotNumbers.find? (fun (i : Fin 4) => u.slots[i].any (fun x => decide (x.state = .free)))

/-- The block map and backfill source of a new FILLING slot (R46, R71). -/
def newWork (d : Definition) (front : Fin 4) : Work :=
  if d.isBackfill then { map := List.replicate d.units .needsCopy, written := 0, source := some front }
  else { map := List.replicate d.units .notWritten, written := 0, source := none }

/-- The slot manager maps every producer write of the window in a slot wait to the new FILLING slot (R47). -/
def mapSlotWaits (w : Fin 16) (i : Fin 4) (s : State) : State :=
  forMasters (fun m t =>
    match t.current m with
    | none => t
    | some e => if e.window = some w ∧ e.inSlotWait = true then mapWaitingToSlot m w i t else t) s

/-- An allocation of slot `i` (R46, R47): it becomes FILLING; under BACKFILL the front becomes its backfill source with
source hold and a backfill job is created; the slot waits are mapped. -/
def allocateSlot (w : Fin 16) (d : Definition) (u : SlotUnit) (i : Fin 4) (s : State) : State :=
  let t := (s.updSlot w i (fun x => { x with state := .filling (newWork d u.front) })).updSlotUnit w
    (fun u => { u with filling := some i })
  let t := if d.isBackfill then createJob w i (t.updSlot w u.front (fun x => { x with hold := true })) else t
  mapSlotWaits w i t

/-- An allocation attempt (R46): it succeeds when the window is LIVE, has neither a FILLING nor a SEALED slot, and has a
FREE one. -/
def allocate (w : Fin 16) (s : State) : State :=
  if s.windows[w].state ≠ .live then s else
  match s.definition w, s.slots[w] with
  | some d, some u =>
    if u.filling ≠ none ∨ u.sealed ≠ none then s else
    match u.lowestFree with
    | none => s
    | some i => allocateSlot w d u i s
  | _, _ => s

/-! ### Retirement and the counts -/

/-- Where a slot that leaves use goes: RETIRING while a count is above 0, else FREE (R61, R63). -/
def Slot.leave (x : Slot) : Slot :=
  { x with state := if x.inFlight = 0 ∧ x.waiting = 0 then .free else .retiring }

/-- Whether a slot is PUBLISHED. -/
def Slot.isPublished (x : Slot) : Bool :=
  match x.state with
  | .published _ => true
  | _ => false

/-- A PUBLISHED slot that is not the front, with no pin and no source hold, retires; a slot that becomes FREE leads to an
allocation attempt (R61, R62). -/
def retire (w : Fin 16) (i : Fin 4) (s : State) : State :=
  match s.slots[w], s.slot w i with
  | some u, some x =>
    if x.isPublished = true ∧ u.front ≠ i ∧ x.pins = 0 ∧ x.hold = false then
      if x.inFlight = 0 ∧ x.waiting = 0 then allocate w (s.updSlot w i Slot.leave) else s.updSlot w i Slot.leave
    else s
  | _, _ => s

/-- A RETIRING slot with both counts 0 becomes FREE, which leads to an allocation attempt (R62). -/
def freeRetiring (w : Fin 16) (i : Fin 4) (s : State) : State :=
  match s.slot w i with
  | none => s
  | some x =>
    if x.state = .retiring ∧ x.inFlight = 0 ∧ x.waiting = 0 then
      allocate w (s.updSlot w i (fun x => { x with state := .free }))
    else s

/-- The slot's in-flight count falls by one, and R62 is applied (R49). -/
def lowerSlotInFlight (w : Fin 16) (i : Fin 4) (s : State) : State :=
  freeRetiring w i (s.updSlot w i (fun x => { x with inFlight := x.inFlight - 1 }))

/-- The slot's waiting count falls by one, and R62 is applied (R49). -/
def lowerSlotWaiting (w : Fin 16) (i : Fin 4) (s : State) : State :=
  freeRetiring w i (s.updSlot w i (fun x => { x with waiting := x.waiting - 1 }))

/-- A piece to the slot is issued: waiting count − 1, in-flight count + 1 (R49). -/
def issueToSlot (w : Fin 16) (i : Fin 4) (s : State) : State :=
  s.updSlot w i (fun x => { x with waiting := x.waiting - 1, inFlight := x.inFlight + 1 })

/-- A producer write piece is issued to a block: its entry becomes WRITTEN and, if it was not, the written count rises
(R54). A slot with no map is left as it is. -/
def markWritten (w : Fin 16) (i : Fin 4) (b : Nat) (s : State) : State :=
  s.updSlot w i (Slot.updWork (fun k =>
    match k.map[b]? with
    | none => k
    | some .written => k
    | some _ => { k with map := k.map.set b .written, written := k.written + 1 }))

/-! ### Discard -/

/-- Steps 1, 2 and 4 of a discard of slot `i` (R63): the map and the window's filling or sealed slot go, the backfill
source loses its hold and R61 is applied to it, and the slot becomes RETIRING or FREE. -/
def discardSlot (w : Fin 16) (i : Fin 4) (s : State) : State :=
  let source := (s.work w i).bind Work.source
  let t := s.updSlotUnit w (fun u =>
    { u with
      filling := if u.filling = some i then none else u.filling
      sealed := if u.sealed = some i then none else u.sealed })
  let t := t.updSlot w i Slot.leave
  match source with
  | none => t
  | some f => retire w f (t.updSlot w f (fun x => { x with hold := false }))

/-- A slot wait's timer starts once the SEALED slot has left SEALED and the allocation attempt has not ended the wait
(R65). -/
def startSlotTimers (w : Fin 16) (s : State) : State :=
  match s.slots[w] with
  | none => s
  | some u =>
    if s.windows[w].state ≠ .live ∨ u.filling ≠ none ∨ u.sealed ≠ none then s else
    forMasters (fun m t =>
      match t.current m with
      | none => t
      | some e =>
        if e.window = some w ∧ e.stage = .waiting (.slot false) then
          startTimer m w (t.updEntry m e.id (fun x => { x with stage := .waiting (.slot true) }))
        else t) s

end Sys2Proof.Machine
end

