-- ==== Sys2Proof/Machine/Roll.lean ====
section
/-! DEFINITION. The roll unit: the mapping of virtual lines (R89, R91), read counts (R95), the seeing count (R96) and
target protection (R97, R98). The advance, which moves views, is in Machine/Publication.lean. -/

namespace Sys2Proof.Machine

/-- The ring position of a virtual line for origin `x`: none for a band line (R89). -/
def Definition.ringPosition (d : Definition) (x v : Nat) : Option Nat :=
  match d.geometry with
  | .slotted _ _ _ => none
  | .rolling top visible staging _ _ =>
    if top ≤ v ∧ v < top + visible then some ((x + v - top) % (visible + staging)) else none

/-- The physical line of a virtual line for origin `x` (R89). -/
def Definition.physicalLine (d : Definition) (x v : Nat) : Nat :=
  match d.geometry with
  | .slotted _ _ _ => 0
  | .rolling top visible staging _ _ =>
    if v < top then v else if v < top + visible then top + (x + v - top) % (visible + staging) else v + staging

/-- The physical start of a rolling window's lines (R27). -/
def Definition.lineBase (d : Definition) : Addr :=
  match d.geometry with
  | .slotted _ _ _ => 0
  | .rolling _ _ _ _ base => base

/-- A piece mapped with origin `x` (R89, R91); `counted` says whether its ring position's read count holds it (R95). -/
def mapToLine (d : Definition) (x : Nat) (counted : Bool) (p : Piece) : Piece :=
  let line := d.physicalLine x p.unit
  let offset := (p.addr.toNat - d.base.toNat) % d.blockSize
  { p with
    phys := d.lineBase + BitVec.ofNat 40 (line * d.blockSize + offset)
    target := .line line (if counted then d.ringPosition x p.unit else none) }

/-- The read count of a ring position (R90). -/
def RollState.readCount (u : RollState) (p : Nat) : Nat := u.reads.getD p 0

/-- The target is clear of readers: the seeing count and the target position's read count are 0 (R97). -/
def RollState.clear (u : RollState) (d : Definition) : Bool :=
  decide (u.seeing = 0) && decide (u.readCount (d.targetPosition u.origin) = 0)

/-- A producer write piece, mapped with x = o + 1: on the target line it carries a visibility condition unless the target
is clear (R94, R97). -/
def mapLineWrite (d : Definition) (u : RollState) (p : Piece) : Piece :=
  let q := mapToLine d ((u.origin + 1) % d.ring) false p
  let onTarget := decide (d.ringPosition ((u.origin + 1) % d.ring) p.unit = some (d.targetPosition u.origin))
  { q with cond := if onTarget && !u.clear d then .visibility else .clear }

/-- A producer write of a rolling window is a closing write when the trigger is CLOSING_WRITE and its range includes the
last byte of the target line as the producer addresses it (R103, R125). -/
def closesRolling (d : Definition) (r : Request) : Bool :=
  match d.geometry with
  | .slotted _ _ _ => false
  | .rolling top visible _ _ _ =>
    decide (d.trigger = .closingWrite) && includesByte r (d.base.toNat + (top + visible) * d.blockSize - 1)

/-- Maps a master's waiting write of a rolling window; a piece that is not clear begins a timed visibility wait (R94,
R97). -/
def mapWaitingToRing (m w : Fin 16) (s : State) : State :=
  match s.current m, s.definition w, s.rolls[w] with
  | some e, some d, some u =>
    let pieces := (cut d e.request).map (mapLineWrite d u)
    let t := s.updEntry m e.id (fun x =>
      { x with stage := .waiting .mapped, pieces := pieces, closing := closesRolling d e.request })
    if pieces.any (fun p => decide (p.cond = .visibility)) then startTimer m w t else t
  | _, _, _ => s

/-- Each counted read piece adds 1 to the read count of its ring position (R95). -/
def captureReads (w : Fin 16) (pieces : List Piece) (s : State) : State :=
  pieces.foldl (fun t p =>
    match p.target with
    | .line _ (some q) => t.updRoll w (fun u => { u with reads := u.reads.modify q (· + 1) })
    | _ => t) s

/-- A write's visibility conditions are cleared. -/
def Entry.clearVisibility (e : Entry) : Entry :=
  { e with pieces := e.pieces.map (fun p => if p.cond = .visibility then { p with cond := .clear } else p) }

/-- When the seeing count and the target position's read count are both 0, every write of the window in a visibility wait
is released, and its stall timer stops if it still runs (R98). -/
def releaseVisibility (w : Fin 16) (s : State) : State :=
  match s.definition w, s.rolls[w] with
  | some d, some u =>
    if u.clear d = false then s else
    forMasters (fun m t =>
      match t.current m with
      | none => t
      | some e =>
        if e.window = some w ∧ e.hasCond .visibility = true then
          stopTimer m (t.updEntry m e.id Entry.clearVisibility)
        else t) s
  | _, _ => s

/-- A read piece counted at a ring position has ended: the count falls by one, and R98 is applied where it is the target
position's (R95). -/
def lowerRead (w : Fin 16) (q : Nat) (s : State) : State :=
  let t := s.updRoll w (fun u => { u with reads := u.reads.modify q (· - 1) })
  match t.definition w, t.rolls[w] with
  | some d, some u => if d.targetPosition u.origin = q then releaseVisibility w t else t
  | _, _ => t

/-- A view of the window leaves seeing: the seeing count falls by one, and R98 is applied (R96). -/
def leaveSeeing (w : Fin 16) (s : State) : State :=
  releaseVisibility w (s.updRoll w (fun u => { u with seeing := u.seeing - 1 }))

end Sys2Proof.Machine
end

