-- ==== Sys2Proof/Machine/Views.lean ====
section
/-! DEFINITION. The view unit: pins (R55), frame starts (R111, R112), a consumer's read (R113 to R115), idle expiry (R116)
and torn views (R118). -/

namespace Sys2Proof.Machine

/-- A view is pinned to slot `i`: its pin count rises by one (R55). -/
def pinSlot (w : Fin 16) (i : Fin 4) (s : State) : State := s.updSlot w i (fun x => { x with pins := x.pins + 1 })

/-- A view releases slot `i`: its pin count falls by one, and R61 is applied (R55). -/
def unpinSlot (w : Fin 16) (i : Fin 4) (s : State) : State :=
  retire w i (s.updSlot w i (fun x => { x with pins := x.pins - 1 }))

/-- The generation of a slot, 0 where it has none (R43). -/
def State.generation (s : State) (w : Fin 16) (i : Fin 4) : BitVec 32 :=
  match s.slot w i with
  | some { state := .published g, .. } => g
  | _ => 0

/-- The idle limit of a consumer's binding, 0 when unbound (R106). -/
def State.idleLimit (s : State) (c : Fin 8) : Nat :=
  match s.consumers[c] with
  | none => 0
  | some b => b.idle

/-- The idle timer of a view restarts when the idle limit is not 0 (R116). -/
def restartIdle (w : Fin 16) (c : Fin 8) (s : State) : State :=
  if s.idleLimit c = 0 then s else s.updView w c (fun v => { v with timer := some s.timebase })

/-- What a view newly pinned holds: the front with its generation, or the current origin with lag 0 (R111, R112). -/
def newPin (w : Fin 16) (s : State) : ViewState :=
  match s.slots[w], s.rolls[w] with
  | some u, _ => .pinnedSlot u.front (s.generation w u.front)
  | none, some r => .pinnedOrigin r.origin 0
  | none, none => .unpinned

/-- The pin count of the front rises for a view newly pinned to it (R55); a rolling window counts no pins. -/
def pinFront (w : Fin 16) (s : State) : State :=
  match s.slots[w] with
  | some u => pinSlot w u.front s
  | none => s

/-- A PINNED view of the window whose lag is S or more sees the target (R96). -/
def sees (d : Option Definition) (lag : Nat) : Bool := d.any (fun d => decide (d.staging ≤ lag))

/-- The move of a view's pin to the front or the current origin, shared by frame starts and late pins: what it held is
given up, the front is pinned unless it is kept (R111, R112, R114). -/
def movePin (w : Fin 16) (c : Fin 8) (s : State) : State :=
  match s.view w c with
  | none => s
  | some v =>
    let t := s.updView w c (fun v => { v with state := newPin w s })
    match v.state with
    | .pinnedSlot p _ =>
      match s.slots[w] with
      | some u => if u.front = p then t else pinSlot w u.front (unpinSlot w p t)
      | none => t
    | .pinnedOrigin _ lag => if sees (s.definition w) lag then leaveSeeing w t else t
    | .unpinned => pinFront w t
    | .torn => pinFront w t

/-- A frame start for a view (R111, R112): the pin moves, the frame count rises modulo 65536, the progress mark becomes
none and the idle timer restarts. -/
def frameStart (w : Fin 16) (c : Fin 8) (s : State) : State :=
  restartIdle w c ((movePin w c s).updView w c (fun v => { v with frames := v.frames + 1, mark := none }))

/-- A late pin (R114): the pin of a frame start without its frame. -/
def latePin (w : Fin 16) (c : Fin 8) (s : State) : State := restartIdle w c (movePin w c s)

/-- Whether a FIRST_BLOCK consumer's read is a frame start for the view (R113). -/
def startsFrame (source : FrameSource) (v : View) (first : Nat) : Bool :=
  decide (source = .firstBlock) && decide (first = 0) &&
  match v.state with
  | .unpinned => true
  | .torn => true
  | _ => v.mark.any (fun k => decide (0 < k))

/-- The progress mark of a PINNED view is raised to the read's last block when it is none or lower (R113). -/
def View.raiseMark (last : Nat) (v : View) : View :=
  match v.state with
  | .pinnedSlot _ _ | .pinnedOrigin _ _ =>
    match v.mark with
    | none => { v with mark := some last }
    | some k => { v with mark := some (max k last) }
  | _ => v

/-- What the view unit does at the classification of a consumer's read, steps 1 to 4 of R115. -/
def consumerRead (w : Fin 16) (c : Fin 8) (first last : Nat) (s : State) : State :=
  match s.consumers[c], s.view w c with
  | some b, some v =>
    let t :=
      if startsFrame b.source v first then frameStart w c s
      else if v.state = .unpinned then latePin w c s else s
    let t := restartIdle w c t
    if b.source = .firstBlock then t.updView w c (View.raiseMark last) else t
  | _, _ => s

/-- The slot a consumer's read reaches once the view unit has answered: the pinned slot, or the front (R52). -/
def consumerSlot (w : Fin 16) (c : Fin 8) (front : Fin 4) (s : State) : Fin 4 :=
  match s.view w c with
  | some { state := .pinnedSlot p _, .. } => p
  | _ => front

/-- The origin a consumer's read is mapped with once the view unit has answered (R92). -/
def consumerOrigin (w : Fin 16) (c : Fin 8) (origin : Nat) (s : State) : Nat :=
  match s.view w c with
  | some { state := .pinnedOrigin x _, .. } => x
  | _ => origin

/-- What a view that loses its pin no longer holds: a slot's pin count falls, or a seeing view leaves seeing (R116,
R118). -/
def givePinUp (w : Fin 16) (held : ViewState) (s : State) : State :=
  match held with
  | .pinnedSlot p _ => unpinSlot w p s
  | .pinnedOrigin _ lag => if sees (s.definition w) lag then leaveSeeing w s else s
  | _ => s

/-- A view named by a tear request becomes TORN: its pin is given up, its progress mark becomes none, its timer runs on,
and VIEW_TORN is posted (R118). -/
def tearView (w : Fin 16) (c : Fin 8) (s : State) : State :=
  match s.view w c with
  | none => s
  | some v =>
    post (.viewTorn w c) (givePinUp w v.state (s.updView w c (fun v => { v with state := .torn, mark := none })))

/-- Whether a view is PINNED to slot `i`. -/
def ViewState.isOnSlot (i : Fin 4) : ViewState → Bool
  | .pinnedSlot p _ => decide (p = i)
  | _ => false

/-- Whether a view is PINNED to an origin with a lag of S or more (R96). -/
def ViewState.isSeeing (d : Option Definition) : ViewState → Bool
  | .pinnedOrigin _ lag => sees d lag
  | _ => false

/-- The tear request of a slot reclaim or a generation reuse: every view pinned to the slot, in consumer order (R118). -/
def tearSlot (w : Fin 16) (i : Fin 4) (s : State) : State :=
  forConsumers (fun c t => if (t.view w c).any (fun v => v.state.isOnSlot i) then tearView w c t else t) s

/-- The tear request of a visibility reclaim: every seeing view of the window, in consumer order (R118). -/
def tearSeeing (w : Fin 16) (s : State) : State :=
  forConsumers (fun c t =>
    if (t.view w c).any (fun v => v.state.isSeeing (t.definition w)) then tearView w c t else t) s

/-- The expiry of a view's idle timer (R116): a PINNED view is released with VIEW_RELEASED, a TORN one becomes UNPINNED
silently; the mark becomes none and the timer stops. -/
def idleRelease (w : Fin 16) (c : Fin 8) (s : State) : State :=
  match s.view w c with
  | none => s
  | some v =>
    let t := s.updView w c (fun v => { v with state := .unpinned, mark := none, timer := none })
    match v.state with
    | .unpinned => t
    | .torn => t
    | held => post (.viewReleased w c) (givePinUp w held t)

/-- A new view record (R109). -/
def View.fresh : View := { state := .unpinned, frames := 0, mark := none, timer := none }

/-- The view records of a window with this consumer set (R109). -/
def freshViews (consumers : BitVec 8) : Vector (Option View) 8 :=
  Vector.ofFn (fun c => if consumers.getLsbD c.val then some View.fresh else none)

end Sys2Proof.Machine
end

