-- ==== Sys2Proof/Machine/Waits.lean ====
section
/-! DEFINITION. Answers from a wait (R15, R64, R101, R133, R135), the placing of a producer write (R51, R94), and the
afresh classification of fenced writes (R131). -/

namespace Sys2Proof.Machine

/-- An unissued captured piece of an answered request is forgotten: the slot's waiting count or the ring position's read
count falls (R49, R95). -/
def forgetPiece (w : Fin 16) (p : Piece) (s : State) : State :=
  if p.unissued = false then s else
  match p.target with
  | .memory => s
  | .slot i => lowerSlotWaiting w i s
  | .line _ none => s
  | .line _ (some q) => lowerRead w q s

/-- A master's waiting request is answered DENIED from its wait (R15, R64, R101): it becomes COMPLETE with zero data, its
stall timer stops, its window's waiting count and the drain count it is in fall (R36, R130), the notice is posted, and
its captured pieces are forgotten. -/
def answerWaiting (m : Fin 16) (reason : Reason) (s : State) : State :=
  match s.current m with
  | none => s
  | some e =>
    let t := stopTimer m (s.updEntry m e.id (fun x =>
      { x with stage := .complete (deniedResponse x.request), inDrain := false }))
    match e.window with
    | none => t
    | some w =>
      let t := lowerWaiting w t
      let t := if e.inDrain then lowerDrain w t else t
      let t := post (deniedNotice (some w) m reason e.request) t
      e.pieces.foldl (fun t p => forgetPiece w p t) t

/-- Answers, in master order, every current request that a test selects (R64, R101, R133, R135). -/
def answerAll (test : Entry → Bool) (reason : Reason) (s : State) : State :=
  forMasters (fun m t =>
    match t.current m with
    | none => t
    | some e => if test e then answerWaiting m reason t else t) s

/-- A producer write of window `w` that is within reach of the events that answer waits (R16). -/
def Entry.deniableWrite (w : Fin 16) (e : Entry) : Bool := e.isWriteOf w && e.reachable

/-- A request of window `w`, read or write, that is within reach of the events that answer waits (R64, R101). -/
def Entry.deniable (w : Fin 16) (e : Entry) : Bool := decide (e.window = some w) && e.reachable

/-- A request of window `w` in a fence wait (R129). -/
def Entry.fencedAt (w : Fin 16) (e : Entry) : Bool := decide (e.window = some w) && e.inFenceWait

/-- The handling of a producer write of a LIVE window (R51, R94): at a raised fence it waits unmapped; without a FILLING
slot it enters a slot wait, whose timer starts at once when there is no SEALED slot (R65); else it is mapped. -/
def placeWrite (m w : Fin 16) (s : State) : State :=
  match s.current m with
  | none => s
  | some e =>
    if s.commits[w].fence then s.updEntry m e.id (fun x => { x with stage := .waiting .fence }) else
    match s.slots[w] with
    | none => mapWaitingToRing m w s
    | some u =>
      match u.filling with
      | some i => mapWaitingToSlot m w i s
      | none =>
        if u.sealed = none then
          startTimer m w (s.updEntry m e.id (fun x => { x with stage := .waiting (.slot true) }))
        else s.updEntry m e.id (fun x => { x with stage := .waiting (.slot false) })

/-- The refusal that a window's state gives a request (R10). -/
def stateRefusal : WinState → Kind → Option Reason
  | .undefined, _ => none
  | .defined, _ => some .notLive
  | .live, _ => none
  | .halted, .read => none
  | .halted, .write => some .halted
  | .draining, _ => some .closing

/-- The fence having dropped, every producer write of the window in a fence wait is classified afresh, in master order
(R131, step 4). -/
def reclassifyFenced (w : Fin 16) (s : State) : State :=
  forMasters (fun m t =>
    match t.current m with
    | none => t
    | some e =>
      if e.fencedAt w then
        match stateRefusal t.windows[w].state e.request.kind with
        | some reason => answerWaiting m reason t
        | none => placeWrite m w t
      else t) s

end Sys2Proof.Machine
end

