-- ==== Sys2Proof/Machine/Publication.lean ====
section
/-! DEFINITION. What the owner of a window's mapping does at a commit's take: publication (R58, R59), seal (R57), abandon
(R60) and advance (R102); and the two reclaims (R67, R100). -/

namespace Sys2Proof.Machine

/-- The non-front PUBLISHED slot, if any, that still holds a generation about to be assigned (R59). -/
def reusedSlot (u : SlotUnit) (g : BitVec 32) : Option (Fin 4) :=
  slotNumbers.find? (fun (i : Fin 4) => decide (i ≠ u.front) && u.slots[i].any (fun x => decide (x.state = .published g)))

/-- Step 1 of R58 before the counter moves: a slot that holds the generation about to be assigned has its views torn and
retires (R59). -/
def freeGeneration (w : Fin 16) (g : BitVec 32) (s : State) : State :=
  match s.slots[w] with
  | none => s
  | some u =>
    match reusedSlot u g with
    | none => s
    | some i => retire w i (tearSlot w i s)

/-- The publication of slot `i` with a tag, its seven steps in order (R58). -/
def publishSlot (w : Fin 16) (i : Fin 4) (tag : BitVec 16) (s : State) : State :=
  match s.slots[w] with
  | none => s
  | some u =>
    let g := u.counter + 1
    let source := (s.work w i).bind Work.source
    let t := freeGeneration w g s
    let t := (t.updSlotUnit w (fun u =>
      { u with
        counter := g, front := i
        filling := if u.filling = some i then none else u.filling
        sealed := if u.sealed = some i then none else u.sealed })).updSlot w i (fun x => { x with state := .published g })
    let t := removeJob w t
    let t := match source with
      | none => t
      | some f => t.updSlot w f (fun x => { x with hold := false })
    let t := retire w u.front t
    allocate w (post (.published w i g tag) t)

/-- The seal of the FILLING slot `i` with its commit's tag (R57). -/
def sealSlot (w : Fin 16) (i : Fin 4) (tag : BitVec 16) (s : State) : State :=
  (s.updSlotUnit w (fun u => { u with filling := none, sealed := some i })).updSlot w i (fun x =>
    match x.state with
    | .filling k => { x with state := .sealed k tag }
    | _ => x)

/-- The missing count of a commit discarded INCOMPLETE (R56). -/
def missingBlocks (d : Definition) (k : Work) : Nat := d.units - k.written

/-- The notice of a commit that the slot manager discards at its take (R56, R60). -/
def discardTake (w : Fin 16) (reason : Reason) (missing : Nat) (c : Commit) (s : State) : State × Bool :=
  (post (.commitDiscarded w reason c.master missing) s, false)

/-- Whether a definition's coverage policy is REQUIRE_FULL (R26). -/
def Definition.requiresFull (d : Definition) : Bool :=
  match d.geometry with
  | .slotted _ .requireFull _ => true
  | _ => false

/-- The slot manager takes a PUBLISH commit, its five conditions in order (R56); true stands for TAKEN. -/
def takePublish (w : Fin 16) (c : Commit) (s : State) : State × Bool :=
  match s.slots[w].bind SlotUnit.filling, s.definition w with
  | some i, some d =>
    match s.work w i with
    | none => discardTake w .noSlot 0 c s
    | some k =>
      if k.written = 0 then discardTake w .empty 0 c s else
      if d.requiresFull = true ∧ k.written < d.units then discardTake w .incomplete (missingBlocks d k) c s else
      if k.has BlockState.uncopied then (sealSlot w i c.tag s, true) else (publishSlot w i c.tag s, true)
  | _, _ => discardTake w .noSlot 0 c s

/-- The slot manager takes an ABANDON commit (R60). -/
def takeAbandon (w : Fin 16) (c : Commit) (s : State) : State × Bool :=
  match s.slots[w].bind SlotUnit.filling with
  | none => discardTake w .noSlot 0 c s
  | some i => (allocate w (post (.abandoned w i) (dropJobs w (discardSlot w i s))), true)

/-- An advance adds 1 to the lag of a PINNED view, saturating at 255 (R96, R102). -/
def ViewState.advance : ViewState → ViewState
  | .pinnedOrigin x lag => .pinnedOrigin x (min Config.lagMax (lag + 1))
  | v => v

/-- Whether an advance takes a view from lag S − 1 to S (R96). -/
def ViewState.entersSeeing (d : Definition) : ViewState → Bool
  | .pinnedOrigin _ lag => decide (lag + 1 = d.staging)
  | _ => false

/-- The roll unit takes a PUBLISH commit as an advance (R102). -/
def takeAdvance (w : Fin 16) (c : Commit) (s : State) : State × Bool :=
  match s.definition w, s.rolls[w] with
  | some d, some u =>
    let entering := consumerNumbers.countP (fun c => (s.view w c).any (fun v => v.state.entersSeeing d))
    let t := s.updRoll w (fun u =>
      { u with origin := (u.origin + 1) % d.ring, serial := u.serial + 1, seeing := u.seeing + entering })
    let t := forConsumers (fun c t => t.updView w c (fun v => { v with state := v.state.advance })) t
    (post (.advanced w (u.serial + 1) c.tag) t, true)
  | _, _ => (s, true)

/-- The owner of the window's mapping takes a commit; true stands for TAKEN (R131, step 1). -/
def ownerTake (w : Fin 16) (c : Commit) (s : State) : State × Bool :=
  match s.slots[w] with
  | none => takeAdvance w c s
  | some _ =>
    match c.action with
    | .publish => takePublish w c s
    | .abandon => takeAbandon w c s

/-- The age of a PUBLISHED slot's generation, none for another slot (R67). -/
def slotAge (counter : BitVec 32) (x : Slot) : Option Nat :=
  match x.state with
  | .published g => some (counter - g).toNat
  | _ => none

/-- The oldest of the non-front PUBLISHED slots among some slot numbers (R67). -/
def oldestOf (u : SlotUnit) : List (Fin 4) → Option (Fin 4 × Nat)
  | [] => none
  | i :: rest =>
    match if i = u.front then none else u.slots[i].bind (slotAge u.counter) with
    | none => oldestOf u rest
    | some age =>
      match oldestOf u rest with
      | none => some (i, age)
      | some (j, age') => if age' ≤ age then some (i, age) else some (j, age')

/-- The slot that a reclaim takes, if there is a candidate (R67). -/
def SlotUnit.oldest (u : SlotUnit) : Option (Fin 4) := (oldestOf u slotNumbers).map Prod.fst

/-- The slot manager reclaims the oldest non-front PUBLISHED slot, where there is one (R67). -/
def reclaimSlot (w : Fin 16) (s : State) : State :=
  match s.slots[w].bind SlotUnit.oldest with
  | none => s
  | some i => retire w i (tearSlot w i s)

/-- The roll unit reclaims the target line: the seeing views are torn and R98 is applied (R100). -/
def reclaimTarget (w : Fin 16) (s : State) : State := releaseVisibility w (tearSeeing w s)

end Sys2Proof.Machine
end

