-- ==== Sys2Proof/Machine/Commits.lean ====
section
/-! DEFINITION. The commit unit: held answers (R132), arrival (R127), begin (R128), take (R131), discards (R133 to R135),
and the commits that watched writes and closing writes create (R124, R125). -/

namespace Sys2Proof.Machine

/-! ### Held answers -/

/-- Every piece of the request has completed (R18). -/
def Entry.allComplete (e : Entry) : Bool :=
  e.pieces.all (fun p => match p.stage with
    | .done _ => true
    | .faulted => true
    | _ => false)

/-- Every piece of the request has been issued (R16). -/
def Entry.allIssued (e : Entry) : Bool := e.pieces.all (fun p => !p.unissued)

/-- At least one piece of the request completed MEMFAULT (R20). -/
def Entry.anyFault (e : Entry) : Bool := e.pieces.any (fun p => decide (p.stage = .faulted))

/-- The data of a completed piece of a READ: the beats returned, or zero after a MEMFAULT (R20). -/
def Piece.readData (p : Piece) : List Dword :=
  match p.stage with
  | .done data => data
  | _ => List.replicate p.beats 0

/-- The status and data of a request whose pieces have all completed and whose commits are all resolved (R20, R132). -/
def Entry.answer (e : Entry) : Response :=
  { status :=
      if e.anyFault then .memfault else
      if 0 < e.created ∧ e.anyTaken = false then .denied else .done
    data :=
      match e.request.kind with
      | .read => e.pieces.flatMap Piece.readData
      | .write => [] }

/-- The stage of a request whose pieces have all completed: HELD while a commit it triggered is unresolved, else COMPLETE
(R5, R18, R132). Its write has ended, and so has left any drain set (R130). -/
def Entry.settle (e : Entry) : Entry :=
  { e with stage := if e.unresolved = 0 then .complete e.answer else .held, inDrain := false }

/-- A commit of the entry is taken or discarded (R132); a HELD entry whose last commit this was becomes COMPLETE. -/
def Entry.resolve (taken : Bool) (e : Entry) : Entry :=
  let x := { e with unresolved := e.unresolved - 1, anyTaken := e.anyTaken || taken }
  if e.stage = .held then x.settle else x

/-- The held answer of a commit's trigger is released (R132). -/
def releaseTrigger (trigger : Option (Fin 16 × Nat)) (taken : Bool) (s : State) : State :=
  match trigger with
  | none => s
  | some (m, id) => s.updEntry m id (Entry.resolve taken)

/-- A commit is created from the store of an entry, whose answer it holds (R124, R125, R132). -/
def Entry.addCommit (e : Entry) : Entry := { e with created := e.created + 1, unresolved := e.unresolved + 1 }

/-! ### Discards -/

/-- The commit unit discards a commit: COMMIT_DISCARDED, then the release of its trigger (R127). -/
def discardCommit (w : Fin 16) (reason : Reason) (c : Commit) (s : State) : State :=
  releaseTrigger c.trigger false (post (.commitDiscarded w reason c.master 0) s)

/-- The commits of a window, the one in progress first, then the queue in order (R133, R135). -/
def CommitState.all (c : CommitState) : List Commit := (c.current.map InProgress.commit).toList ++ c.queue

/-- A write of window `w` is no longer in a drain set, the commit that had it being discarded. -/
def Entry.leaveDrain (w : Fin 16) (e : Entry) : Entry := if e.window = some w then { e with inDrain := false } else e

/-- Every commit of the window is discarded and its fence lowered, fenced writes not being classified afresh (R133,
R135). The drain set of the commit in progress goes with it. -/
def discardAll (w : Fin 16) (reason : Reason) (s : State) : State :=
  let commits := s.commits[w].all
  let t := { s with responses := s.responses.map (List.map (Entry.leaveDrain w)) }.updCommits w (fun _ => .reset)
  commits.foldl (fun t c => discardCommit w reason c t) t

/-- The queued commits of the window are discarded, the one in progress kept (R134). -/
def discardQueue (w : Fin 16) (reason : Reason) (s : State) : State :=
  let commits := s.commits[w].queue
  let t := s.updCommits w (fun c => { c with queue := [] })
  commits.foldl (fun t c => discardCommit w reason c t) t

/-! ### Begin and take -/

/-- Whether an entry belongs to the drain set of a commit of window `w` that begins now: a producer write classified and
not yet completed; fence waits are not among them (R128). -/
def Entry.joinsDrain (w : Fin 16) (e : Entry) : Bool :=
  e.isWriteOf w && !e.inFenceWait &&
  match e.stage with
  | .waiting _ => true
  | .inFlight => true
  | _ => false

/-- Marks the entry as a member of the drain set, where it joins it (R128). -/
def Entry.enterDrain (w : Fin 16) (e : Entry) : Entry := if e.joinsDrain w then { e with inDrain := true } else e

/-- The number of writes in the drain set of a commit of window `w` that begins now (R128). -/
def drainSetSize (w : Fin 16) (s : State) : Nat :=
  (masters.map (fun (m : Fin 16) => s.responses[m].countP (Entry.joinsDrain w))).sum

/-- A commit begins (R128): the fence rises, the drain set is fixed, and the commit is in progress. -/
def beginCommit (w : Fin 16) (c : Commit) (s : State) : State :=
  let n := drainSetSize w s
  let t := { s with responses := s.responses.map (List.map (Entry.enterDrain w)) }
  t.updCommits w (fun x => { x with current := some ⟨c, n⟩, fence := true })

/-- Step 3 of R131 in a DRAINING window: where the take has left a FILLING slot, the copier drops its jobs (R40). -/
def dropAfterTake (w : Fin 16) (s : State) : State :=
  if s.windows[w].state = .draining ∧ (s.slots[w].bind SlotUnit.filling) ≠ none then dropJobs w s else s

/-- Steps 1 to 4 of the take of the commit in progress (R131). -/
def takeOnce (w : Fin 16) (c : Commit) (s : State) : State :=
  let (t, taken) := ownerTake w c s
  let t := releaseTrigger c.trigger taken t
  let t := dropAfterTake w t
  reclassifyFenced w (t.updCommits w (fun x => { x with current := none, fence := false }))

/-- Whether the window's commit in progress has drained (R130). -/
def drained (s : State) (w : Fin 16) : Option Commit :=
  match s.commits[w].current with
  | some ⟨c, 0⟩ => some c
  | _ => none

/-- Step 5 of R131: while the window is LIVE, the head of its queue is removed and begins. -/
def beginNext (w : Fin 16) (s : State) : State :=
  match s.commits[w].queue with
  | [] => s
  | next :: rest =>
    if s.windows[w].state = .live then beginCommit w next (s.updCommits w (fun x => { x with queue := rest })) else s

/-- The commit in progress, when its drain count is 0, is taken, and the queue's head begins (R131). -/
def takeNext (w : Fin 16) (s : State) : State :=
  match drained s w with
  | none => s
  | some c => beginNext w (takeOnce w c s)

/-- The take of the commit in progress of a window, when its drain count is 0 (R131). A commit that then begins with a
drain count of 0 is taken at once (R128); no more commits can follow one another than are queued. -/
def takeCommit (w : Fin 16) (s : State) : State := (takeNext w)^[s.commits[w].queue.length + 1] s

/-- The reason with which a commit is discarded at its arrival, if it is (R127). -/
def arrivalDiscard (s : State) (w : Fin 16) : Option Reason :=
  if s.link.part = .resetting then some .reset else
  match s.windows[w].state with
  | .undefined => some .notLive
  | .defined => some .notLive
  | .halted => some .halted
  | .draining => some .closing
  | .live => if Config.commitDepth ≤ s.commits[w].queue.length then some .queueFull else none

/-- A commit arrives at its window's queue (R127). -/
def arrive (w : Fin 16) (c : Commit) (s : State) : State :=
  match arrivalDiscard s w with
  | some reason => discardCommit w reason c s
  | none =>
    if s.commits[w].current = none ∧ s.commits[w].queue = [] then takeCommit w (beginCommit w c s)
    else s.updCommits w (fun x => { x with queue := x.queue ++ [c] })

/-! ### Sources -/

/-- The beat of a WRITE that holds the 8-byte word at an address (R124, R145). -/
def beatHolding (r : Request) (word : Addr) : Option Beat := r.data[(word.toNat - r.addr.toNat) / 8]?

/-- Whether a WRITE includes at least one byte of the word at an address (R9). -/
def includesWord (r : Request) (word : Addr) : Bool := touches (requestRange r) (wordRegion word)

/-- What a store to a window's commit word is: an ordinary store, a BAD_COMMIT, or a commit (R124). -/
def commitWordStore (d : Definition) (m : Fin 16) (b : Beat) : Option (Option (Action × BitVec 16)) :=
  if d.producers.getLsbD m.val = false then none else
  if d.trigger ≠ .commitWord then some none else
  if lanesFull b = false then some none else
  match commitAction b with
  | none => some none
  | some .abandon => if d.isSlotted then some (some (.abandon, commitTag b)) else some none
  | some .publish => some (some (.publish, commitTag b))

/-- The commit unit takes the report of a store that includes a window's commit word (R124). -/
def reportCommitWord (w : Fin 16) (m : Fin 16) (id : Nat) (r : Request) (s : State) : State :=
  if s.windows[w].state = .undefined then s else
  match s.definition w with
  | none => s
  | some d =>
    match d.word with
    | none => s
    | some a =>
      if includesWord r a = false then s else
      match beatHolding r a with
      | none => s
      | some b =>
        match commitWordStore d m b with
        | none => s
        | some none => post (.badCommit w m) s
        | some (some (action, tag)) =>
          arrive w { action := action, tag := tag, master := some m, trigger := some (m, id) }
            (s.updEntry m id Entry.addCommit)

/-- The notice unit takes the report of a store that includes the consumed-index word, while the ring is ACTIVE or
FAULTED (R145). -/
def reportConsumedIndex (r : Request) (s : State) : State :=
  if s.notice.ring = .unset then s else
  match s.notice.definition with
  | none => s
  | some d =>
    if includesWord r d.consumed = false then s else
    match beatHolding r d.consumed with
    | none => s
    | some b => s.updNotice (fun n => n.takeIndex d b)

/-- Whether a WRITE includes a byte of a watched word (R9). -/
def isWatchedWrite (r : Request) (s : State) : Bool :=
  decide (r.kind = .write) &&
  (windowNumbers.any (fun (w : Fin 16) => decide (s.windows[w].state ≠ .undefined) &&
      (s.definition w).any (fun d => d.word.any (fun a => includesWord r a))) ||
   (decide (s.notice.ring ≠ .unset) && s.notice.definition.any (fun d => includesWord r d.consumed)))

/-- A closing write whose pieces all completed DONE creates its commit, which arrives before the write's completion is
counted against a drain set (R125). -/
def closingCommit (m : Fin 16) (e : Entry) (w : Fin 16) (s : State) : State :=
  if e.closing = true ∧ e.anyFault = false then
    arrive w { action := .publish, tag := 0, master := some m, trigger := some (m, e.id) }
      (s.updEntry m e.id (fun x => x.addCommit.settle))
  else s.updEntry m e.id Entry.settle

end Sys2Proof.Machine
end

