-- ==== Sys2Proof/Machine/Windows.lean ====
section
/-! DEFINITION. The window controller's transitions: fault reports and HALTED (R37, R38), drain (R40, R41), and the
clearing of a soft reset (R164, R165). -/

namespace Sys2Proof.Machine

/-! ### Faults and HALTED -/

/-- Step 1 of R38: the FILLING or SEALED slot is discarded, and what it was is answered. -/
def discardForHalt (w : Fin 16) (s : State) : State × Discarded :=
  match s.slots[w].bind SlotUnit.filling, s.slots[w].bind SlotUnit.sealed with
  | some i, _ => (discardSlot w i s, .filling)
  | none, some i => (discardSlot w i s, .sealed)
  | none, none => (s, .none)

/-- A window enters HALTED, the steps of R38 in order. -/
def haltWindow (w : Fin 16) (cause : HaltCause) (s : State) : State :=
  let t := s.updWindow w (fun x => { x with state := .halted, haltCause := some cause })
  let (t, discarded) := discardForHalt w t
  let t := dropJobs w t
  let t := post (.windowHalted w cause discarded) t
  let t := discardAll w .halted t
  answerAll (Entry.deniableWrite w) .halted t

/-- The window controller takes a fault report (R37). -/
def faultReport (w : Fin 16) (cause : HaltCause) (s : State) : State :=
  if s.link.part = .running ∧ s.windows[w].state = .live ∧ (s.definition w).any Definition.haltOnFault = true then
    haltWindow w cause s
  else s

/-! ### Clearing of a window -/

/-- The slot, roll and view state of a window and the copier's jobs for it are removed (R68, R74, R105, R122). -/
def removeWorkingState (w : Fin 16) (s : State) : State :=
  let t := { s with
    slots := upd s.slots w (fun _ => none), rolls := upd s.rolls w (fun _ => none),
    views := upd s.views w (fun _ => Vector.replicate 8 none) }
  (removeJob w t).updCopier (fun c => { c with urgent := c.urgent.filter (fun u => decide (u.window ≠ w)) })

/-- The window becomes DEFINED with tallies 0 and no halt cause (R41, R42). -/
def becomeDefined (w : Fin 16) (s : State) : State :=
  s.updWindow w (fun x => { x with state := .defined, inFlight := 0, waiting := 0, haltCause := none })

/-! ### Drain -/

/-- The conditions of R41 hold together. -/
def isDrained (s : State) (w : Fin 16) : Bool :=
  decide (s.windows[w].inFlight = 0) && decide (s.windows[w].waiting = 0) &&
  decide (s.commits[w].current = none) && decide (s.commits[w].queue = []) && !copierWorksFor s w

/-- The completion of a drain in one take (R41). -/
def completeDrain (w : Fin 16) (s : State) : State :=
  post (.windowDrained w) (becomeDefined w (removeWorkingState w s))

/-- The drain of a window completes when it is DRAINING and drained; no drain completes while the part is RESETTING (R41,
R163). -/
def testDrain (w : Fin 16) (s : State) : State :=
  if s.link.part = .running ∧ s.windows[w].state = .draining ∧ isDrained s w = true then completeDrain w s else s

/-- Step 2 of R40: with no commit in progress the copier drops the jobs for the window's FILLING slot, if one exists;
true stands for a drop. -/
def drainDrop (w : Fin 16) (s : State) : State × Bool :=
  if s.commits[w].current = none ∧ (s.slots[w].bind SlotUnit.filling) ≠ none then (dropJobs w s, true) else (s, false)

/-- The writes that step 3 of R40 answers: those in a slot wait, and those in a copy wait whose backfill was dropped. -/
def Entry.closedByDrain (w : Fin 16) (dropped : Bool) (e : Entry) : Bool :=
  e.isWriteOf w && e.reachable && (e.inSlotWait || (dropped && e.hasCond .copyWait))

/-- The take of DRAIN WINDOW: the steps of R40 in order, then the test of R41. -/
def drainWindow (w : Fin 16) (s : State) : State :=
  let t := s.updWindow w (fun x => { x with state := .draining, haltCause := none })
  let t := discardQueue w .closing t
  let (t, dropped) := drainDrop w t
  testDrain w (answerAll (Entry.closedByDrain w dropped) .closing t)

/-! ### Soft reset -/

/-- A window has working state: it is LIVE, HALTED or DRAINING (R43, R90, R109). -/
def WinState.working : WinState → Bool
  | .live => true
  | .halted => true
  | .draining => true
  | _ => false

/-- The three conditions a soft reset waits for hold together (R164). -/
def resetReady (s : State) : Bool :=
  windowNumbers.all (fun (w : Fin 16) => !s.windows[w].state.working ||
    (decide (s.windows[w].inFlight = 0) && decide (s.windows[w].waiting = 0))) &&
  decide (s.copier.copy = none) && decide (s.notice.inFlight = none)

/-- What the clearing does to a window (R42, R165). -/
def clearWindow (w : Fin 16) (s : State) : State :=
  if s.windows[w].state.working then becomeDefined w (removeWorkingState w s) else s

/-- What the clearing does to the notice unit (R149). -/
def NoticeUnit.clearing (n : NoticeUnit) : NoticeUnit :=
  let ring := if n.ring = .faulted then RingState.active else n.ring
  ({ n with
      ring := ring, write := 0, consumed := 0, writtenBack := 0, sequence := 0, lost := 0, pending := [],
      indexError := false, owed := decide (ring = RingState.active) }).driveAttn

/-- The clearing of a soft reset, its five steps in order (R165). -/
def softClear (s : State) : State :=
  let t := forWindows clearWindow s
  let t := t.updCopier (fun c => { c with pointer := 15 })
  let t := t.updNotice NoticeUnit.clearing
  let t := post .resetDone t
  t.updLink (fun l => { l with part := .running })

/-- The link tests the conditions of a soft reset in progress, and clears in the same take when they hold (R164). -/
def testReset (s : State) : State := if s.link.part = .resetting ∧ resetReady s = true then softClear s else s

end Sys2Proof.Machine
end

