-- ==== Sys2Proof/Machine/RequestPath.lean ====
section
/-! DEFINITION. The request path: arrival (R4), classification (R6 to R15), issue (R16, R17), piece completion (R18 to
R20) and response (R21). -/

namespace Sys2Proof.Machine

/-! ### Arrival -/

/-- A request arrives: it joins its master's intake queue, or is kept on the bus while that queue holds 8 (R4). -/
def arriveRequest (m : Fin 16) (r : Request) (s : State) : State :=
  if s.intake[m].length < Config.intakeDepth then { s with intake := upd s.intake m (· ++ [r]) }
  else { s with onBus := upd s.onBus m (· ++ [r]) }

/-- REQUEST_ARRIVAL. -/
def execRequestArrival (m : Fin 16) (r : Request) (s : State) : Host.Outcome State Fault Refusal :=
  .next (arriveRequest m r s)

/-! ### Classification -/

/-- The head request leaves its intake queue, and the request kept on the bus, if any, is accepted into the freed place
(R4). -/
def popIntake (m : Fin 16) (s : State) : State :=
  match s.onBus[m] with
  | [] => { s with intake := upd s.intake m List.tail }
  | r :: rest => { s with intake := upd s.intake m (fun q => q.tail ++ [r]), onBus := upd s.onBus m (fun _ => rest) }

/-- A response-list entry for a request (R5). -/
def newEntry (id : Nat) (r : Request) (w : Option (Fin 16)) (stage : Stage) (pieces : List Piece) : Entry :=
  { id := id, request := r, window := w, stage := stage, pieces := pieces, closing := false, inDrain := false,
    created := 0, unresolved := 0, anyTaken := false }

/-- An entry joins a master's response list (R5). -/
def enter (m : Fin 16) (r : Request) (w : Option (Fin 16)) (stage : Stage) (pieces : List Piece) (s : State) : State :=
  { s with
    responses := upd s.responses m (· ++ [newEntry s.nextId r w stage pieces])
    nextId := s.nextId + 1 }

/-- A request refused at classification enters as COMPLETE, DENIED, and its notice is posted (R5, R13). -/
def refuseHead (m : Fin 16) (r : Request) (w : Option (Fin 16)) (reason : Reason) (s : State) : State :=
  post (deniedNotice w m reason r) (enter m r w (.complete (deniedResponse r)) [] s)

/-- A request enters WAITING for a window and is counted in its waiting request count (R36). -/
def enterWaiting (m : Fin 16) (r : Request) (w : Fin 16) (wait : Wait) (pieces : List Piece) (s : State) : State :=
  (enter m r (some w) (.waiting wait) pieces s).updWindow w (fun x => { x with waiting := x.waiting + 1 })

/-- A passthrough request or watched write enters WAITING with a single piece at its own address (R9, R12). -/
def enterPassthrough (m : Fin 16) (r : Request) (s : State) : State :=
  enter m r none (.waiting .mapped) [plainPiece r.addr r.beats r.data 0] s

/-- The owners of the watched words a WRITE includes are told: the commit unit for each window in order, then the notice
unit (R9, log 12). -/
def reportWatched (m : Fin 16) (id : Nat) (r : Request) (s : State) : State :=
  reportConsumedIndex r (forWindows (fun w t => reportCommitWord w m id r t) s)

/-- A watched write (R9). -/
def watchedWrite (m : Fin 16) (r : Request) (s : State) : State := reportWatched m s.nextId r (enterPassthrough m r s)

/-- A READ of a slotted window is mapped (R50, R52, R53). -/
def mapSlottedRead (m w : Fin 16) (d : Definition) (u : SlotUnit) (r : Request) (s : State) : State :=
  match s.role d m with
  | .producer =>
    let pieces := (cut d r).map (fun p =>
      mapToSlot d (producerReadSlot u (u.filling.bind (s.work w)) p) p)
    captureSlots w pieces (enterWaiting m r w .mapped pieces s)
  | .consumer c =>
    let t := consumerRead w c (firstUnit d r) (lastUnit d r) s
    let pieces := (cut d r).map (mapToSlot d (consumerSlot w c u.front t))
    captureSlots w pieces (enterWaiting m r w .mapped pieces t)
  | .bystander =>
    let pieces := (cut d r).map (mapToSlot d u.front)
    captureSlots w pieces (enterWaiting m r w .mapped pieces s)

/-- A READ of a rolling window is mapped (R91 to R95). -/
def mapRollingRead (m w : Fin 16) (d : Definition) (u : RollState) (r : Request) (s : State) : State :=
  match s.role d m with
  | .producer =>
    enterWaiting m r w .mapped ((cut d r).map (mapToLine d ((u.origin + 1) % d.ring) false)) s
  | .consumer c =>
    let t := consumerRead w c (firstUnit d r) (lastUnit d r) s
    let pieces := (cut d r).map (mapToLine d (consumerOrigin w c u.origin t) true)
    captureReads w pieces (enterWaiting m r w .mapped pieces t)
  | .bystander =>
    let pieces := (cut d r).map (mapToLine d u.origin true)
    captureReads w pieces (enterWaiting m r w .mapped pieces s)

/-- A window request of a window that maps it (R10): the owner of the mapping maps it, makes it wait or refuses it. -/
def mapWindowRequest (m w : Fin 16) (r : Request) (s : State) : State :=
  match s.definition w with
  | none => s
  | some d =>
    match r.kind with
    | .write =>
      if s.role d m = .producer then placeWrite m w (enterWaiting m r w .mapped [] s)
      else refuseHead m r (some w) .notProducer s
    | .read =>
      match s.slots[w], s.rolls[w] with
      | some u, _ => mapSlottedRead m w d u r s
      | none, some u => mapRollingRead m w d u r s
      | none, none => s

/-- A window request (R10). -/
def windowRequest (m w : Fin 16) (r : Request) (s : State) : State :=
  match stateRefusal s.windows[w].state r.kind with
  | some reason => refuseHead m r (some w) reason s
  | none => mapWindowRequest m w r s

/-- The tests of section 1.3 on a head request already taken from its queue, after those of R7 and R11. -/
def classifyHead (m : Fin 16) (r : Request) (s : State) : State :=
  match touchedWindows r s, insideWindow r s with
  | first :: _, none => refuseHead m r (some first) .straddle s
  | _, some w => if isWatchedWrite r s then watchedWrite m r s else windowRequest m w r s
  | [], none => if isWatchedWrite r s then watchedWrite m r s else enterPassthrough m r s

/-- The head request of a master may be classified: no entry is WAITING and fewer than 16 are listed (R6). -/
def mayClassify (s : State) (m : Fin 16) : Bool :=
  decide (s.current m = none) && decide (s.responses[m].length < Config.responseDepth)

/-- The classification of the head request of a master (R6, R7, R11). -/
def classify (m : Fin 16) (s : State) : State :=
  match s.intake[m] with
  | [] => s
  | r :: _ =>
    if mayClassify s m = false then s else
    if crossesPage r then refuseHead m r none .badRequest (popIntake m s) else
    if s.link.part = .resetting ∧ touchedWindows r s ≠ [] then s else
    classifyHead m r (popIntake m s)

/-- CLASSIFICATION. -/
def execClassification (m : Fin 16) (s : State) : Host.Outcome State Fault Refusal := .next (classify m s)

/-! ### Issue -/

/-- The 18 contenders in their fixed order (R17). -/
def contenders : List Contender := masters.map Contender.master ++ [.noticeWriter, .copier]

/-- The contenders in the order that follows the one last granted (R17). -/
def rotationAfter (last : Contender) : List Contender :=
  let k := contenders.findIdx (fun c => decide (c = last)) + 1
  contenders.drop k ++ contenders.take k

/-- A WAITING request is ready when every piece is mapped and no piece carries a condition, or when its first piece is
already issued (R16). -/
def Entry.ready (e : Entry) : Bool :=
  decide (e.stage = .waiting .mapped) && (!e.reachable || e.pieces.all (fun p => decide (p.cond = .clear)))

/-- The number of the first unissued piece (R16). -/
def Entry.nextPiece (e : Entry) : Option (Nat × Piece) :=
  match e.pieces.findIdx? Piece.unissued with
  | none => none
  | some k => (e.pieces[k]?).map (fun p => (k, p))

/-- The notice write that the notice writer would issue: the initial write-back owed, a write-back due, or a record (R141,
R143, R144). -/
def noticeOffer (s : State) : Option (RingDef × NoticeWrite) :=
  if s.link.part ≠ .running then none else
  if s.notice.ring ≠ .active then none else
  match s.notice.inFlight, s.notice.definition with
  | none, some d =>
    if s.notice.owed then some (d, .writeBack 0) else
    if s.notice.writeBackDue d then some (d, .writeBack s.notice.write) else
    if s.notice.recordPossible d then some (d, .record) else none
  | _, _ => none

/-- Whether a contender contends for the memory port (R17). -/
def contends (s : State) : Contender → Bool
  | .master m => (s.current m).any (fun e => e.ready && e.nextPiece.isSome)
  | .noticeWriter => (noticeOffer s).isSome
  | .copier => (copierOffer s).isSome

/-- The lowest-numbered free place of the memory port; its number serves as issue tag (R17, log 5). -/
def freePlace (s : State) : Option (Fin 32) :=
  placeNumbers.find? (fun (i : Fin 32) => decide (s.places[i] = none))

/-- A memory request takes a place (R17). -/
def takePlace (i : Fin 32) (q : MemRequest) (s : State) : State := { s with places := upd s.places i (fun _ => some q) }

/-- The owner of the window's mapping and the window controller count a piece issued (R16, R36, R49, R54). -/
def countIssue (w : Fin 16) (r : Request) (p : Piece) (s : State) : State :=
  let t := s.updWindow w (fun x => { x with inFlight := x.inFlight + 1 })
  match p.target with
  | .slot i => if r.kind = .write then markWritten w i p.unit (issueToSlot w i t) else issueToSlot w i t
  | _ => t

/-- The piece `k` of an entry is issued; with its last piece the request goes from WAITING to IN FLIGHT (R5). -/
def Entry.issue (k : Nat) (p : Piece) (e : Entry) : Entry :=
  let x := { e with pieces := e.pieces.set k { p with stage := .issued } }
  if x.allIssued then { x with stage := .inFlight } else x

/-- A master's next piece is issued into a place (R16). -/
def issuePiece (place : Fin 32) (m : Fin 16) (e : Entry) (k : Nat) (p : Piece) (s : State) : State :=
  let t := takePlace place
    { owner := .piece m e.id k, kind := e.request.kind, addr := p.phys, beats := p.beats, data := p.data } s
  let t := t.updEntry m e.id (Entry.issue k p)
  match e.window with
  | none => t
  | some w =>
    let t := countIssue w e.request p t
    if (e.issue k p).allIssued then testReset (lowerWaiting w t) else t

/-- The notice writer's write is issued into a place (R142, R144). -/
def issueNotice (place : Fin 32) (d : RingDef) (write : NoticeWrite) (s : State) : State :=
  match write with
  | .writeBack v =>
    (takePlace place
      { owner := .noticeWrite, kind := .write, addr := d.produced, beats := 1, data := [beatOf (producedBytes v)] } s).updNotice
      (fun n => { n with owed := false, flush := false, holdoff := .stopped, inFlight := some ⟨.writeBack v, false⟩ })
  | .record =>
    match s.notice.pending with
    | [] => s
    | n :: rest =>
      (takePlace place
        { owner := .noticeWrite, kind := .write, addr := d.base + BitVec.ofNat 40 (16 * s.notice.write), beats := 2,
          data := beatsOf 2 (recordBytes n s.notice.lost s.notice.sequence) } s).updNotice
        (fun n => { n with pending := rest, lost := 0, inFlight := some ⟨.record, false⟩ })

/-- The address of a chunk of the block being copied, in slot `i` (R77). -/
def chunkAddr (d : Definition) (i : Fin 4) (block chunk : Nat) : Addr :=
  d.slotBase i + BitVec.ofNat 40 (block * d.blockSize + chunk * Config.chunkBytes)

/-- The copier's burst is issued into a place, and counts in the destination slot's in-flight count (R49, R77). -/
def issueBurst (place : Fin 32) (offer : Offer) (s : State) : State :=
  match s.copier.copy with
  | none => s
  | some y =>
    match s.definition y.window with
    | none => s
    | some d =>
      let t := match offer with
        | .write i chunk data =>
          (takePlace place
            { owner := .copierBurst i, kind := .write, addr := chunkAddr d y.dest y.block chunk, beats := 16,
              data := data.map (fun x => ⟨x, 0xFF⟩) } s).updCopier
            (fun c => { c with buffers := upd c.buffers i (fun _ => some ⟨chunk, .writing data⟩) })
        | .read i chunk =>
          (takePlace place
            { owner := .copierBurst i, kind := .read, addr := chunkAddr d y.source y.block chunk, beats := 16,
              data := [] } s).updCopier
            (fun c => { c with
              buffers := upd c.buffers i (fun _ => some ⟨chunk, .reading⟩)
              copy := some { y with next := y.next + 1 } })
      t.updSlot y.window y.dest (fun x => { x with inFlight := x.inFlight + 1 })

/-- The memory request of a contender is issued into a place (R17). -/
def issueFor (place : Fin 32) (c : Contender) (s : State) : State :=
  match c with
  | .master m =>
    match s.current m with
    | none => s
    | some e =>
      match e.nextPiece with
      | none => s
      | some (k, p) => issuePiece place m e k p s
  | .noticeWriter =>
    match noticeOffer s with
    | none => s
    | some (d, write) => issueNotice place d write s
  | .copier =>
    match copierOffer s with
    | none => s
    | some offer => issueBurst place offer s

/-- One grant of the issue arbiter: a free place goes to the first ready contender in the order that follows the one last
granted (R17). -/
def grant (s : State) : State :=
  match freePlace s, (rotationAfter s.lastGranted).find? (contends s) with
  | some place, some c => issueFor place c { s with lastGranted := c }
  | _, _ => s

/-- ISSUE_GRANT. -/
def execIssueGrant (s : State) : Host.Outcome State Fault Refusal := .next (grant s)

/-! ### Completion -/

/-- A place is given back (R18). -/
def releasePlace (i : Fin 32) (s : State) : State := { s with places := upd s.places i (fun _ => none) }

/-- The stage of a completed piece (R18, R20). -/
def Piece.complete (kind : Kind) (status : MemStatus) (data : List Dword) (p : Piece) : Piece :=
  { p with
    stage := match status, kind with
      | .done, .read => .done (fitBeats p.beats data)
      | .done, .write => .done []
      | .memfault, _ => .faulted }

/-- The number a MEMORY_FAULT notice gives for a piece's target: its slot or its physical line (R19, R172). -/
def Target.number : Target → Nat
  | .memory => 0
  | .slot i => i.val
  | .line n _ => n

/-- The window's tallies take a piece's completion: the in-flight count of its target, with R62 or R98 applied, and of the
window (R18, R36, R49, R95). -/
def countCompletion (w : Fin 16) (p : Piece) (s : State) : State :=
  let t := s.updWindow w (fun x => { x with inFlight := x.inFlight - 1 })
  match p.target with
  | .slot i => lowerSlotInFlight w i t
  | .line _ (some q) => lowerRead w q t
  | _ => t

/-- A request whose last piece has completed leaves IN FLIGHT: a closing write creates its commit first, and only then is
the completion counted against a drain set (R18, R125, R130). -/
def finishRequest (m : Fin 16) (e : Entry) (s : State) : State :=
  match e.window with
  | none => s.updEntry m e.id Entry.settle
  | some w =>
    let t := closingCommit m e w s
    if e.inDrain then lowerDrain w t else t

/-- A piece completes: its target and window are counted down, a MEMFAULT is posted, the request may leave IN FLIGHT, and
a producer write's fault is reported to the window controller (R18, R19; order: log 14). DESIGN CHOICE (log 25): where the
completion brings a commit's drain count to 0 (R130), the commit is taken by COMMIT_TAKE, after the fault report; a report
that halts the window discards it first (R133). The manual leaves the order of that report and the take open. -/
def pieceCompleted (m : Fin 16) (e : Entry) (k : Nat) (p : Piece) (status : MemStatus) (s : State) : State :=
  let e := { e with pieces := e.pieces.set k p }
  let t := s.updEntry m e.id (fun x => { x with pieces := x.pieces.set k p })
  let t := match e.window with
    | none => t
    | some w =>
      let t := countCompletion w p t
      if status = .memfault then post (.memoryFault w m p.target.number e.request.kind) t else t
  let t := if e.allComplete then finishRequest m e t else t
  match e.window with
  | none => t
  | some w => if status = .memfault ∧ e.request.kind = .write then faultReport w .memfault t else t

/-- A master's response-list entry of a given id. -/
def State.entry (s : State) (m : Fin 16) (id : Nat) : Option Entry := s.responses[m].find? (fun e => decide (e.id = id))

/-- The memory side completes the piece issued under a tag (R18). -/
def completePiece (tag : Fin 32) (status : MemStatus) (data : List Dword) (s : State) : State :=
  match s.places[tag] with
  | some { owner := .piece m id k, .. } =>
    let t := releasePlace tag s
    match t.entry m id with
    | none => t
    | some e =>
      match e.pieces[k]? with
      | none => t
      | some p => testReset (pieceCompleted m e k (p.complete e.request.kind status data) status t)
  | _ => s

/-- PIECE_COMPLETION. -/
def execPieceCompletion (tag : Fin 32) (status : MemStatus) (data : List Dword) (s : State) :
    Host.Outcome State Fault Refusal :=
  .next (completePiece tag status data s)

/-! ### Response -/

/-- The oldest entry of a master's response list, once COMPLETE, is answered on the bus and removed (R21). -/
def sendResponse (m : Fin 16) (s : State) : State :=
  match s.responses[m] with
  | [] => s
  | e :: rest =>
    match e.stage with
    | .complete answer =>
      { s with responses := upd s.responses m (fun _ => rest), sent := upd s.sent m (fun _ => some answer) }
    | _ => s

/-- RESPONSE_SENT. -/
def execResponseSent (m : Fin 16) (s : State) : Host.Outcome State Fault Refusal := .next (sendResponse m s)

end Sys2Proof.Machine
end

