-- ==== Sys2Proof/Machine/CopierEvents.lean ====
section
/-! DEFINITION. What a copier burst completion does: the chunk moves on (R77), the copy ends (R78), an attempt fails (R79),
a backfill fails (R80, R81), or a dropped copy ends (R84). -/

namespace Sys2Proof.Machine

/-- Step 1 of R78 for one write: the copy waits on the block are cleared, and the block its other piece still needs is
listed (R75). -/
def clearCopyWait (m w : Fin 16) (i : Fin 4) (b : Nat) (s : State) : State :=
  match s.current m with
  | none => s
  | some e =>
    let clear := fun (p : Piece) => if p.target = .slot i ∧ p.unit = b ∧ p.cond = .copyWait then { p with cond := .clear } else p
    if e.window = some w ∧ e.pieces.any (fun p => decide (clear p ≠ p)) = true then
      listFirstNeedsCopy w i (e.pieces.map clear)
        (s.updEntry m e.id (fun x => { x with pieces := x.pieces.map clear }))
    else s

/-- Step 2 of R78: a SEALED slot with no block left to copy is published, and the slot waits that no allocation ended have
their timers started (R57, R65). -/
def publishSealed (w : Fin 16) (i : Fin 4) (s : State) : State :=
  match s.slot w i with
  | some { state := .sealed k tag, .. } =>
    if k.has BlockState.uncopied then s else startSlotTimers w (publishSlot w i tag s)
  | _ => s

/-- The slot manager acts on the report of a copy's end (R78). -/
def reportCopyEnd (w : Fin 16) (i : Fin 4) (b : Nat) (s : State) : State :=
  publishSealed w i (forMasters (fun m t => clearCopyWait m w i b t) s)

/-- A block copy ends: the entry becomes COPIED, the copy in progress none, and the copier chooses its next block, before
or after the slot manager's actions as a free value says (R76, R78, section 11.1; log 6). -/
def endCopy (y : Copy) (s : State) : State :=
  let t := { setBlock y.window y.dest y.block .copied s with draws := s.draws + 1 }
  if Config.copierChoosesFirst s.draws then
    reportCopyEnd y.window y.dest y.block (kickCopier (t.updCopier Copier.endCopy))
  else kickCopier ((reportCopyEnd y.window y.dest y.block t).updCopier Copier.endCopy)

/-- The retry of a failed first attempt starts once its last burst has completed (R79). -/
def startRetry (s : State) : State :=
  s.updCopier (fun c =>
    { c with
      copy := c.copy.map (fun y => { y with attempt := .retry, failed := false, next := 0, written := 0 })
      buffers := Vector.replicate 4 none })

/-- A copy that issues no further burst moves on when its last burst has completed: a dropped copy ends (R84), a failed
first attempt is retried (R79). -/
def afterLastBurst (s : State) : State :=
  match s.copier.copy with
  | none => s
  | some y =>
    if s.copier.burstsInFlight ≠ 0 then s else
    if y.dropped then endDropped s else
    if y.failed then startRetry s else s

/-- Whether a slot is SEALED. -/
def Slot.isSealed (x : Slot) : Bool :=
  match x.state with
  | .sealed _ _ => true
  | _ => false

/-- Whether a producer write of window `w` has a piece mapped to slot `i` and is within reach (R64, R81). -/
def Entry.deniableOn (w : Fin 16) (i : Fin 4) (e : Entry) : Bool :=
  e.deniableWrite w && e.pieces.any (fun p => decide (p.target = .slot i))

/-- A backfill failure: the steps of R80, the slot manager's report of R81 and, after the fault report, the allocation
attempt and the timers of slot waits (R65, R81). The writes are answered while the slot is not yet RETIRING, so that the
last answer frees no slot and no allocation comes before the fault report, which finds NONE to discard (R38, R81; log 15).
The dropped copy with no burst left ends last. DESIGN CHOICE (log 25): where an answer brings a commit's drain count to 0
(R130), the commit is taken by COMMIT_TAKE, after the fault report and the allocation attempt; the manual does not say
whether that take precedes them. -/
def backfillFailure (y : Copy) (s : State) : State :=
  let w := y.window
  let lost := (s.slot w y.dest).any Slot.isSealed
  let t := dropMarks w s
  let t := post (.backfillFailed w y.block lost) t
  let t := answerAll (Entry.deniableOn w y.dest) .backfillFailed t
  let t := discardSlot w y.dest t
  let t := faultReport w .backfillFailed t
  endDropped (startSlotTimers w (allocate w t))

/-- A MEMFAULT on a burst of a copy that is not dropped and whose attempt has not failed: the first attempt fails (R79), or
the backfill does (R80). -/
def burstFault (y : Copy) (s : State) : State :=
  match y.attempt with
  | .first =>
    afterLastBurst ((s.updCopy (fun y => { y with failed := true })).updCopier Copier.dropFull)
  | .retry => backfillFailure y s

/-- A write burst completes DONE: with the last chunk's the copy ends (R77, R78). -/
def chunkWritten (y : Copy) (s : State) : State :=
  let t := s.updCopy (fun y => { y with written := y.written + 1 })
  match s.definition y.window with
  | none => t
  | some d => if y.written + 1 = d.chunks then endCopy y t else t

/-- The burst of buffer `i` of the copy in progress completes (R77, R79, R80, R84). -/
def burstCompleted (i : Fin 4) (b : Buffer) (y : Copy) (status : MemStatus) (data : List Dword) (s : State) : State :=
  let t := lowerSlotInFlight y.window y.dest s
  let cleared := t.updCopier (fun c => c.clearBuffer i)
  if y.dropped = true ∨ y.failed = true then afterLastBurst cleared else
  match status, b.stage with
  | .memfault, _ => burstFault y cleared
  | .done, .reading =>
    t.updCopier (fun c => { c with buffers := upd c.buffers i (fun _ => some ⟨b.chunk, .full (fitBeats 16 data)⟩) })
  | .done, _ => chunkWritten y cleared

/-- The memory side completes the copier burst issued under a tag (R18, R77). -/
def completeBurst (tag : Fin 32) (status : MemStatus) (data : List Dword) (s : State) : State :=
  match s.places[tag] with
  | some { owner := .copierBurst i, .. } =>
    let t := releasePlace tag s
    match t.copier.copy, t.copier.buffers[i] with
    | some y, some b => testReset (burstCompleted i b y status data t)
    | _, _ => t
  | _ => s

/-- COPIER_BURST_COMPLETION. -/
def execCopierBurstCompletion (tag : Fin 32) (status : MemStatus) (data : List Dword) (s : State) :
    Host.Outcome State Fault Refusal :=
  .next (completeBurst tag status data s)

end Sys2Proof.Machine
end

