-- ==== Sys2Proof/Machine/NoticeRing.lean ====
section
/-! DEFINITION. The completions of notice writes (R142, R144, R148) and the expiry of the holdoff timer (R143). -/

namespace Sys2Proof.Machine

/-- The notice unit takes the completion of its write in flight: a stale one changes nothing else (R137), MEMFAULT makes
the ring FAULTED (R148), DONE moves the indices (R142, R144). -/
def NoticeUnit.complete (n : NoticeUnit) (f : NoticeInFlight) (status : MemStatus) (now : Micros) : NoticeUnit :=
  let n := { n with inFlight := none }
  if f.stale then n else
  match status, f.write, n.definition with
  | .memfault, _, _ => n.fault
  | .done, .record, some d => n.recordDone d now
  | .done, .record, none => n
  | .done, .writeBack v, _ => n.writeBackDone v

/-- A notice write completes: its place is freed, the notice unit takes it, and a soft reset in progress is tested (R18,
R164). -/
def completeNotice (tag : Fin 32) (f : NoticeInFlight) (status : MemStatus) (s : State) : State :=
  testReset ((releasePlace tag s).updNotice (fun n => n.complete f status s.timebase))

/-- The memory side completes the record write issued under a tag (R142). -/
def completeRecord (tag : Fin 32) (status : MemStatus) (s : State) : State :=
  match s.places[tag], s.notice.inFlight with
  | some { owner := .noticeWrite, .. }, some f => if f.write = .record then completeNotice tag f status s else s
  | _, _ => s

/-- The memory side completes the write-back issued under a tag (R144). -/
def completeWriteBack (tag : Fin 32) (status : MemStatus) (s : State) : State :=
  match s.places[tag], s.notice.inFlight with
  | some { owner := .noticeWrite, .. }, some f => if f.write = .record then s else completeNotice tag f status s
  | _, _ => s

/-- RECORD_WRITE_COMPLETION. -/
def execRecordWriteCompletion (tag : Fin 32) (status : MemStatus) (s : State) : Host.Outcome State Fault Refusal :=
  .next (completeRecord tag status s)

/-- WRITE_BACK_COMPLETION. -/
def execWriteBackCompletion (tag : Fin 32) (status : MemStatus) (s : State) : Host.Outcome State Fault Refusal :=
  .next (completeWriteBack tag status s)

/-- The holdoff timer expires when the timebase has counted the holdoff since its start (R143). -/
def expireHoldoff (s : State) : State :=
  match s.notice.holdoff, s.notice.definition with
  | .running start, some d =>
    if elapsed s.timebase start d.holdoff then s.updNotice (fun n => { n with holdoff := .expired }) else s
  | _, _ => s

/-- HOLDOFF_EXPIRY. -/
def execHoldoffExpiry (s : State) : Host.Outcome State Fault Refusal := .next (expireHoldoff s)

end Sys2Proof.Machine
end

