-- ==== Sys2Proof/Machine/Timers.lean ====
section
/-! DEFINITION. The timebase (R162), the frame lines (R108), and the expiries of stall timers (R66, R67, R99, R100) and
idle timers (R116). -/

namespace Sys2Proof.Machine

/-- TIMEBASE_INCREMENT: the count increases by 1 and wraps (R162). -/
def execTimebaseIncrement (s : State) : Host.Outcome State Fault Refusal :=
  .next { s with timebase := s.timebase + 1 }

/-- Whether a window's views take frame-line events: it is LIVE or HALTED (R108). -/
def takesFrames (x : WinState) : Bool := decide (x = .live) || decide (x = .halted)

/-- A rising edge on FRMc: a frame start for each view of a bound LINE consumer in a LIVE or HALTED window, the windows
in order (R108; order: log 13). -/
def frameLine (c : Fin 8) (s : State) : State :=
  match s.consumers[c] with
  | none => s
  | some b =>
    if b.source = .line ∧ s.link.part = .running then
      forWindows (fun w t =>
        if takesFrames t.windows[w].state = true ∧ (t.view w c).isSome = true then frameStart w c t else t) s
    else s

/-- FRAME_LINE_EVENT. -/
def execFrameLineEvent (c : Fin 8) (s : State) : Host.Outcome State Fault Refusal := .next (frameLine c s)

/-- A master's stall timer has reached its limit (R35, R162). -/
def timerDue (s : State) (m : Fin 16) : Bool := s.stallTimers[m].any (fun t => elapsed s.timebase t.start t.limit)

/-- The expiry of a slot-wait timer (R66, R67). -/
def expireSlotWait (m : Fin 16) (s : State) : State :=
  if timerDue s m = false then s else
  match s.current m with
  | none => s
  | some e =>
    if e.inSlotWait = false then s else
    match e.window with
    | none => s
    | some w =>
      match s.definition w with
      | none => s
      | some d =>
        match d.policy with
        | .stall => answerWaiting m .slotExhausted s
        | .reclaim => reclaimSlot w (stopTimer m s)

/-- SLOT_WAIT_TIMER_EXPIRY. -/
def execSlotWaitTimerExpiry (m : Fin 16) (s : State) : Host.Outcome State Fault Refusal := .next (expireSlotWait m s)

/-- The expiry of a visibility-wait timer (R99, R100). -/
def expireVisibilityWait (m : Fin 16) (s : State) : State :=
  if timerDue s m = false then s else
  match s.current m with
  | none => s
  | some e =>
    if e.hasCond .visibility = false then s else
    match e.window with
    | none => s
    | some w =>
      match s.definition w with
      | none => s
      | some d =>
        match d.policy with
        | .stall => answerWaiting m .targetVisible s
        | .reclaim => reclaimTarget w (stopTimer m s)

/-- VISIBILITY_WAIT_TIMER_EXPIRY. -/
def execVisibilityWaitTimerExpiry (m : Fin 16) (s : State) : Host.Outcome State Fault Refusal :=
  .next (expireVisibilityWait m s)

/-- A view's idle timer has reached its consumer's idle limit, which is not 0 (R116, R162). -/
def idleDue (s : State) (w : Fin 16) (c : Fin 8) : Bool :=
  decide (s.idleLimit c ≠ 0) &&
  (s.view w c).any (fun v => v.timer.any (fun start => elapsed s.timebase start (s.idleLimit c)))

/-- The expiry of a view's idle timer (R116). -/
def expireIdle (w : Fin 16) (c : Fin 8) (s : State) : State := if idleDue s w c then idleRelease w c s else s

/-- IDLE_EXPIRY. -/
def execIdleExpiry (w : Fin 16) (c : Fin 8) (s : State) : Host.Outcome State Fault Refusal := .next (expireIdle w c s)

end Sys2Proof.Machine
end

