-- ==== Sys2Proof/Machine/Lifecycle.lean ====
section
/-! DEFINITION. The part's own takes (COMMIT_TAKE, DRAIN_COMPLETION, SOFT_RESET_CLEARING) and its reset events. -/

namespace Sys2Proof.Machine

/-- COMMIT_TAKE: the commit in progress of a window, its drain count at 0, is taken (R131). -/
def execCommitTake (w : Fin 16) (s : State) : Host.Outcome State Fault Refusal := .next (takeCommit w s)

/-- DRAIN_COMPLETION: a DRAINING window that is drained becomes DEFINED (R41). -/
def execDrainCompletion (w : Fin 16) (s : State) : Host.Outcome State Fault Refusal := .next (testDrain w s)

/-- SOFT_RESET_CLEARING: the clearing, once the conditions of R164 hold (R165). -/
def execSoftResetClearing (s : State) : Host.Outcome State Fault Refusal := .next (testReset s)

/-- The part after RESET_N with SSEL at a level when it is released: every block at its hard-reset values, the frame in
progress discarded, the commands and edges still to come and the model's own counters kept (R22, R42, R73, R122, R150,
R151, R166; log 22). -/
def hardReset (sselLow : Bool) (s : State) : State :=
  { State.reset with
    pending := s.pending, edges := s.edges, draws := s.draws, nextId := s.nextId,
    link := { Link.reset with awaitRise := sselLow } }

/-- HARD_RESET. -/
def execHardReset (sselLow : Bool) (s : State) : Host.Outcome State Fault Refusal := .next (hardReset sselLow s)

/-- SSEL_RISE_AFTER_RESET: the link accepts a frame again at the next fall of SSEL (R151). -/
def execSselRiseAfterReset (s : State) : Host.Outcome State Fault Refusal :=
  .next (s.updLink (fun l => { l with awaitRise := false }))

end Sys2Proof.Machine
end

