-- ==== Sys2Proof/WellFormed.lean ====
section
/-! DEFINITION. Which commands the interconnect, the memory side and the link pins can supply. The part itself checks
none of this: it uses the fields as received (R1). -/

namespace Sys2Proof

/-- The ranges of R1 that the interconnect keeps: an address that is a multiple of 8. -/
def Request.aligned (r : Request) : Bool := r.addr.toNat % 8 == 0

/-- R1: 1 to 16 beats. -/
def Request.beatsInRange (r : Request) : Bool := decide (1 ≤ r.beats) && decide (r.beats ≤ 16)

/-- R1: write data only with a WRITE, one value and one set of lane enables per beat. -/
def Request.dataFits (r : Request) : Bool :=
  match r.kind with
  | .read => r.data.isEmpty
  | .write => r.data.length == r.beats

/-- A request as the interconnect supplies it (R1). -/
def Request.wf (r : Request) : Bool := r.aligned && r.beatsInRange && r.dataFits

/-- R3: a completion carries at most 16 beats of data. -/
def completionDataFits (data : List Dword) : Bool := decide (data.length ≤ 16)

/-- R168: write commands have codes 0x01 to 0x0F and read commands 0x81 to 0x87. -/
def namesCommand (code : Byte) : Bool :=
  (decide (0x01 ≤ code.toNat) && decide (code.toNat ≤ 0x0F)) ||
  (decide (0x81 ≤ code.toNat) && decide (code.toNat ≤ 0x87))

/-- A command that the part's surroundings can supply. -/
def Instr.wf : Instr → Bool
  | .requestArrival _ r => r.wf
  | .pieceCompletion _ _ data => completionDataFits data
  | .copierBurstCompletion _ _ data => completionDataFits data
  | .unknownCommandFrame code _ => !namesCommand code
  | .classification _ | .issueGrant | .recordWriteCompletion _ _ | .writeBackCompletion _ _ | .responseSent _
  | .hardReset _ | .frameLineEvent _ | .slotWaitTimerExpiry _ | .visibilityWaitTimerExpiry _ | .idleExpiry _ _
  | .holdoffExpiry | .commitTake _ | .drainCompletion _ | .softResetClearing => true
  | .defineWindow _ | .setCommitWord _ | .undefineWindow _ | .enableWindow _ | .drainWindow _ | .resumeWindow _
  | .setStallLimit _ | .publish _ | .abandon _ | .bindConsumer _ | .unbindConsumer _ | .setNoticeRing _
  | .setNoticeMask _ | .flushNotices _ | .softReset _ => true
  | .readWindowDefinition _ | .readWindowStatus _ | .readViewStatus _ | .readConsumer _ | .readRingStatus _
  | .readPartStatus _ | .readResult _ | .timebaseIncrement | .sselRiseAfterReset => true

end Sys2Proof
end

