-- ==== Sys2Proof/Machine/LinkCommands.lean ====
section
/-! DEFINITION. The write commands of the management link: the frame and busy checks and the result record (R153 to R155),
then each command as its owner takes it (R28 to R40, R107, R126, R137, R140, R144, R157, R163). -/

namespace Sys2Proof.Machine

/-! ### The taking of a write command -/

/-- The owner's answer to a command: carried out, with the new state, or refused with a result and an index. -/
abbrev Answer := Except (Result × Nat) State

/-- REFUSED_PARAM with the index of the offending parameter (R154). -/
def refuseParam (index : Nat) : Answer := .error (.refusedParam, index)

/-- REFUSED_STATE (R154). -/
def refuseState : Answer := .error (.refusedState, 0)

/-- The result record after the take of a write command (R154). -/
def ResultRecord.next (r : ResultRecord) (code : Byte) (result : Result) (index : Nat) : ResultRecord :=
  { lastCommand := some code, result := result, param := index, sequence := r.sequence + 1 }

/-- The link records the outcome of a take at the rise of SSEL, which ends the frame (R151, R154). -/
def recordResult (code : Byte) (result : Result) (index : Nat) (s : State) : State :=
  s.updLink (fun l => { l with result := l.result.next code result index, frame := none })

/-- The outcome a frame gets: REFUSED_FRAME when its length is wrong, REFUSED_BUSY while the part is RESETTING, else its
owner's answer (R153, R155). -/
def frameAnswer (lengthOk : Bool) (owner : State → Answer) (s : State) : Answer :=
  if lengthOk = false then .error (.refusedFrame, 0) else
  if s.link.part = .resetting then .error (.refusedBusy, 0) else owner s

/-- The take of a write command at the rise of SSEL (R153 to R155). While the link waits for SSEL to rise after a reset
there is no frame to take (R151). -/
def takeWrite (code : Byte) (lengthOk : Bool) (owner : State → Answer) (s : State) : State :=
  if s.link.awaitRise then s else
  match frameAnswer lengthOk owner s with
  | .error (result, index) => recordResult code result index s
  | .ok t => recordResult code .accepted 0 t

/-- The frame of a command: its code byte and the bytes after it. -/
def frameOf (code : Byte) (params : List Byte) : List Byte := code :: params

/-- The length check of a command of fixed length, the code byte counted (R153, R168). -/
def hasLength (n : Nat) (frame : List Byte) : Bool := decide (frame.length = n)

/-- A window command's parameter 1 (section 9.3): a window number above 15 is refused first. -/
def withWindow (frame : List Byte) (f : Fin 16 → Answer) : Answer :=
  match number 16 (field frame 1 1) with
  | none => refuseParam 1
  | some w => f w

/-! ### Window definitions -/

/-- The masters bound to consumers of a set (R31). -/
def boundMasters (s : State) (consumers : BitVec 8) : List (Fin 16) :=
  consumerNumbers.filterMap (fun (c : Fin 8) => if consumers.getLsbD c.val then s.consumers[c].map Binding.master else none)

/-- The relational checks of R29 on a definition for window `w`, in order; the index named by the first that fails. -/
def relationalCheck (w : Fin 16) (d : Definition) (s : State) : Option Nat :=
  let tooLong := match d.geometry with
    | .slotted _ _ _ => false
    | .rolling top visible staging bottom _ => decide (64 < top + visible + staging + bottom)
  if tooLong then some 15 else
  if (boundMasters s d.consumers).any (fun (m : Fin 16) => d.producers.getLsbD m.val) then some 5 else
  firstOverlap (s.windowRegions (some w) ++ s.ringRegions) d.regions

/-- DEFINE WINDOW at its take (R28, R29). -/
def ownerDefineWindow (frame : List Byte) (s : State) : Answer :=
  withWindow frame (fun w =>
    if s.windows[w].state.working then refuseState else
    match firstFailing (fieldChecks frame) with
    | some i => refuseParam i
    | none =>
      match relationalCheck w (definitionOf frame) s with
      | some i => refuseParam i
      | none => .ok (s.updWindow w (fun x => { x with state := .defined, definition := some (definitionOf frame) })))

/-- DEFINE_WINDOW. -/
def execDefineWindow (params : List Byte) (s : State) : Host.Outcome State Fault Refusal :=
  let frame := frameOf codeDefineWindow params
  .next (takeWrite codeDefineWindow (defineLengthOk frame) (ownerDefineWindow frame) s)

/-- The commit word given to SET COMMIT WORD overlaps a guarded region other than the window's own present word (R30,
R32). -/
def wordOverlaps (w : Fin 16) (d : Definition) (a : Addr) (s : State) : Bool :=
  (s.windowRegions (some w) ++ s.ringRegions ++ ({ d with word := none }).regions.map Prod.snd).any
    (fun g => touches (wordRegion a) g)

/-- SET COMMIT WORD at its take (R32). -/
def ownerSetCommitWord (frame : List Byte) (s : State) : Answer :=
  withWindow frame (fun w =>
    match s.windows[w].state, s.definition w with
    | .defined, some d =>
      match wordField frame 2 with
      | none => .ok (s.updWindow w (fun x => { x with definition := some { d with word := none } }))
      | some a =>
        if a.toNat % 8 ≠ 0 ∨ wordOverlaps w d a s = true then refuseParam 2 else
        .ok (s.updWindow w (fun x => { x with definition := some { d with word := some a } }))
    | _, _ => refuseState)

/-- SET_COMMIT_WORD. -/
def execSetCommitWord (params : List Byte) (s : State) : Host.Outcome State Fault Refusal :=
  let frame := frameOf codeSetCommitWord params
  .next (takeWrite codeSetCommitWord (hasLength 7 frame) (ownerSetCommitWord frame) s)

/-- UNDEFINE WINDOW at its take (R32). -/
def ownerUndefineWindow (frame : List Byte) (s : State) : Answer :=
  withWindow frame (fun w =>
    if s.windows[w].state = .defined then
      .ok (s.updWindow w (fun x => { x with state := .undefined, definition := none }))
    else refuseState)

/-- UNDEFINE_WINDOW. -/
def execUndefineWindow (params : List Byte) (s : State) : Host.Outcome State Fault Refusal :=
  let frame := frameOf codeUndefineWindow params
  .next (takeWrite codeUndefineWindow (hasLength 2 frame) (ownerUndefineWindow frame) s)

/-! ### Enable, drain, resume, stall limit -/

/-- Every consumer of a set is bound (R34). -/
def allBound (s : State) (consumers : BitVec 8) : Bool :=
  consumerNumbers.all (fun (c : Fin 8) => !consumers.getLsbD c.val || s.consumers[c].isSome)

/-- The checks 3 to 7 of R34 on a DEFINED window, in order; the index named by the first that fails. -/
def enableCheck (w : Fin 16) (d : Definition) (front : Nat) (s : State) : Option Nat :=
  let frontOk := match d.geometry with
    | .slotted _ _ bases => decide (front < bases.length)
    | .rolling _ _ _ _ _ => true
  if frontOk = false then some 2 else
  match firstFailing (fieldChecks (definitionFrame w d)) with
  | some i => some i
  | none =>
    if allBound s d.consumers = false then some 6 else
    if d.trigger = .commitWord ∧ d.word = none then some 8 else
    relationalCheck w d s

/-- The slot records of a slotted window at ENABLE WINDOW: the initial front PUBLISHED with generation 0, the others FREE
(R45). -/
def freshSlots (slots : Nat) (front : Fin 4) : SlotUnit :=
  let blank : SlotState → Slot := fun x => { state := x, pins := 0, inFlight := 0, waiting := 0, hold := false }
  { slots := Vector.ofFn (fun i =>
      if i.val < slots then some (blank (if i = front then .published 0 else .free)) else none)
    counter := 0, front := front, filling := none, sealed := none }

/-- The roll state of a rolling window at ENABLE WINDOW (R90, R104). -/
def freshRoll (d : Definition) : RollState :=
  { origin := 0, serial := 0, seeing := 0, reads := List.replicate d.ring 0 }

/-- The window becomes LIVE and is handed to the commit unit, the view unit, and the slot manager or roll unit (R34). -/
def enableWindow (w : Fin 16) (d : Definition) (front : Fin 4) (s : State) : State :=
  let t := s.updWindow w (fun x => { x with state := .live, inFlight := 0, waiting := 0, haltCause := none })
  let t := t.updCommits w (fun _ => .reset)
  let t := { t with views := upd t.views w (fun _ => freshViews d.consumers) }
  match d.geometry with
  | .slotted _ _ bases => allocate w { t with slots := upd t.slots w (fun _ => some (freshSlots bases.length front)) }
  | .rolling _ _ _ _ _ => { t with rolls := upd t.rolls w (fun _ => some (freshRoll d)) }

/-- ENABLE WINDOW at its take (R34). -/
def ownerEnableWindow (frame : List Byte) (s : State) : Answer :=
  withWindow frame (fun w =>
    match s.windows[w].state, s.definition w with
    | .defined, some d =>
      match enableCheck w d (field frame 2 1) s with
      | some i => refuseParam i
      | none => .ok (enableWindow w d (Fin.ofNat 4 (field frame 2 1)) s)
    | _, _ => refuseState)

/-- ENABLE_WINDOW. -/
def execEnableWindow (params : List Byte) (s : State) : Host.Outcome State Fault Refusal :=
  let frame := frameOf codeEnableWindow params
  .next (takeWrite codeEnableWindow (hasLength 3 frame) (ownerEnableWindow frame) s)

/-- DRAIN WINDOW at its take (R40). -/
def ownerDrainWindow (frame : List Byte) (s : State) : Answer :=
  withWindow frame (fun w =>
    if s.windows[w].state = .live ∨ s.windows[w].state = .halted then .ok (drainWindow w s) else refuseState)

/-- DRAIN_WINDOW. -/
def execDrainWindow (params : List Byte) (s : State) : Host.Outcome State Fault Refusal :=
  let frame := frameOf codeDrainWindow params
  .next (takeWrite codeDrainWindow (hasLength 2 frame) (ownerDrainWindow frame) s)

/-- RESUME WINDOW at its take (R39). -/
def ownerResumeWindow (frame : List Byte) (s : State) : Answer :=
  withWindow frame (fun w =>
    if s.windows[w].state = .halted then
      .ok (allocate w (s.updWindow w (fun x => { x with state := .live, haltCause := none })))
    else refuseState)

/-- RESUME_WINDOW. -/
def execResumeWindow (params : List Byte) (s : State) : Host.Outcome State Fault Refusal :=
  let frame := frameOf codeResumeWindow params
  .next (takeWrite codeResumeWindow (hasLength 2 frame) (ownerResumeWindow frame) s)

/-- SET STALL LIMIT at its take (R35). -/
def ownerSetStallLimit (frame : List Byte) (s : State) : Answer :=
  withWindow frame (fun w =>
    let x := s.windows[w].state
    if x = .defined ∨ x = .live ∨ x = .halted then
      if field frame 2 2 = 0 then refuseParam 2 else
      .ok (s.updWindow w (fun x => { x with definition := x.definition.map (fun d => { d with limit := field frame 2 2 }) }))
    else refuseState)

/-- SET_STALL_LIMIT. -/
def execSetStallLimit (params : List Byte) (s : State) : Host.Outcome State Fault Refusal :=
  let frame := frameOf codeSetStallLimit params
  .next (takeWrite codeSetStallLimit (hasLength 4 frame) (ownerSetStallLimit frame) s)

/-! ### Publish and abandon -/

/-- A commit from the link: no master, no trigger (R126). -/
def linkCommit (action : Action) (tag : BitVec 16) : Commit :=
  { action := action, tag := tag, master := none, trigger := none }

/-- PUBLISH at its take (R126, R157). -/
def ownerPublish (frame : List Byte) (s : State) : Answer :=
  withWindow frame (fun w =>
    if s.windows[w].state = .live then .ok (arrive w (linkCommit .publish (BitVec.ofNat 16 (field frame 2 2))) s)
    else refuseState)

/-- PUBLISH. -/
def execPublish (params : List Byte) (s : State) : Host.Outcome State Fault Refusal :=
  let frame := frameOf codePublish params
  .next (takeWrite codePublish (hasLength 4 frame) (ownerPublish frame) s)

/-- ABANDON at its take (R126, R157). -/
def ownerAbandon (frame : List Byte) (s : State) : Answer :=
  withWindow frame (fun w =>
    if s.windows[w].state ≠ .live then refuseState else
    if (s.definition w).any Definition.isSlotted then .ok (arrive w (linkCommit .abandon 0) s) else refuseParam 1)

/-- ABANDON. -/
def execAbandon (params : List Byte) (s : State) : Host.Outcome State Fault Refusal :=
  let frame := frameOf codeAbandon params
  .next (takeWrite codeAbandon (hasLength 2 frame) (ownerAbandon frame) s)

/-! ### Consumer bindings -/

/-- The consumer is in the consumer set of a window that is LIVE, HALTED or DRAINING (R107, check 2). -/
def consumerInUse (s : State) (c : Fin 8) : Bool :=
  windowNumbers.any (fun (w : Fin 16) =>
    s.windows[w].state.working && (s.definition w).any (fun d => d.consumers.getLsbD c.val))

/-- The master is bound to a consumer other than `c` (R107, check 4). -/
def boundElsewhere (s : State) (c : Fin 8) (m : Fin 16) : Bool :=
  consumerNumbers.any (fun (x : Fin 8) => decide (x ≠ c) && s.consumers[x].any (fun b => decide (b.master = m)))

/-- The master is a producer of a window that is not UNDEFINED and has the consumer in its set (R107, check 5). -/
def producesFor (s : State) (c : Fin 8) (m : Fin 16) : Bool :=
  windowNumbers.any (fun (w : Fin 16) => decide (s.windows[w].state ≠ .undefined) &&
    (s.definition w).any (fun d => d.producers.getLsbD m.val && d.consumers.getLsbD c.val))

/-- The frame source a code names (R169). -/
def sourceOf : Nat → Option FrameSource
  | 1 => some .line
  | 2 => some .firstBlock
  | _ => none

/-- BIND CONSUMER at its take, its checks in order (R107). -/
def ownerBindConsumer (frame : List Byte) (s : State) : Answer :=
  match number 8 (field frame 1 1) with
  | none => refuseParam 1
  | some c =>
    if consumerInUse s c then refuseState else
    match number 16 (field frame 2 1) with
    | none => refuseParam 2
    | some m =>
      if boundElsewhere s c m = true ∨ producesFor s c m = true then refuseParam 2 else
      match sourceOf (field frame 3 1) with
      | none => refuseParam 3
      | some source =>
        .ok { s with consumers := upd s.consumers c (fun _ => some ⟨m, source, field frame 4 2⟩) }

/-- BIND_CONSUMER. -/
def execBindConsumer (params : List Byte) (s : State) : Host.Outcome State Fault Refusal :=
  let frame := frameOf codeBindConsumer params
  .next (takeWrite codeBindConsumer (hasLength 6 frame) (ownerBindConsumer frame) s)

/-- UNBIND CONSUMER at its take (R107). -/
def ownerUnbindConsumer (frame : List Byte) (s : State) : Answer :=
  match number 8 (field frame 1 1) with
  | none => refuseParam 1
  | some c =>
    if consumerInUse s c then refuseState else .ok { s with consumers := upd s.consumers c (fun _ => none) }

/-- UNBIND_CONSUMER. -/
def execUnbindConsumer (params : List Byte) (s : State) : Host.Outcome State Fault Refusal :=
  let frame := frameOf codeUnbindConsumer params
  .next (takeWrite codeUnbindConsumer (hasLength 2 frame) (ownerUnbindConsumer frame) s)

/-! ### The notice ring -/

/-- The ring definition a SET NOTICE RING frame carries: a threshold of 0 is taken as 4, holdoff mode 1 as 100 µs (R137,
R169). -/
def ringOf (frame : List Byte) : RingDef :=
  { base := addrField frame 1, entries := field frame 6 2, produced := addrField frame 8,
    consumed := addrField frame 13,
    threshold := if field frame 18 1 = 0 then 4 else field frame 18 1,
    holdoff := if field frame 19 1 = 1 then 100 else field frame 20 2 }

/-- The entry counts a ring may have (R136). -/
def ringSizes : List Nat := [16, 32, 64, 128, 256, 512, 1024, 2048, 4096]

/-- The checks 1 to 6 of R137, in order. -/
def ringFieldChecks (frame : List Byte) : List (Bool × Nat) :=
  let d := ringOf frame
  [(ringSizes.contains d.entries, 2),
   (regionFits (field frame 1 5) (d.entries * 16) (d.entries * 16), 1),
   (decide (field frame 8 5 % 8 = 0), 3),
   (decide (field frame 13 5 % 8 = 0), 4),
   (within 1 d.threshold 16, 5),
   (within 0 (field frame 19 1) 1, 6)]

/-- The checks 7 and 8 of R137: the three regions apart from one another, and from every window's regions. DESIGN CHOICE
(log 27): where more than one pair of the three overlaps, check 7 names the first region, in index order, that overlaps
one before it, where R137 says "the later of the two overlapping". -/
def ringOverlap (d : RingDef) (s : State) : Option Nat :=
  match firstOverlap [] d.regions with
  | some i => some i
  | none => (d.regions.find? (fun p => (s.windowRegions none).any (fun g => touches p.2 g))).map Prod.fst

/-- What the take of SET NOTICE RING does to the notice unit, with a definition or with none (R137). -/
def NoticeUnit.setRing (n : NoticeUnit) (d : Option RingDef) : NoticeUnit :=
  ({ n with
      ring := if d = none then .unset else .active, definition := d,
      write := 0, consumed := 0, writtenBack := 0, sequence := 0, lost := 0, indexError := false,
      pending := if d = none then [] else n.pending,
      holdoff := .stopped, flush := false, owed := d.isSome,
      inFlight := n.inFlight.map (fun (f : NoticeInFlight) => { f with stale := true }) }).driveAttn

/-- SET NOTICE RING at its take (R137). -/
def ownerSetNoticeRing (frame : List Byte) (s : State) : Answer :=
  if field frame 6 2 = 0 then .ok (s.updNotice (fun n => n.setRing none)) else
  match firstFailing (ringFieldChecks frame) with
  | some i => refuseParam i
  | none =>
    match ringOverlap (ringOf frame) s with
    | some i => refuseParam i
    | none => .ok (s.updNotice (fun n => n.setRing (some (ringOf frame))))

/-- SET_NOTICE_RING. -/
def execSetNoticeRing (params : List Byte) (s : State) : Host.Outcome State Fault Refusal :=
  let frame := frameOf codeSetNoticeRing params
  .next (takeWrite codeSetNoticeRing (hasLength 22 frame) (ownerSetNoticeRing frame) s)

/-- SET NOTICE MASK at its take (R140). -/
def ownerSetNoticeMask (frame : List Byte) (s : State) : Answer :=
  .ok (s.updNotice (fun n => { n with mask := BitVec.ofNat 16 (field frame 1 2) }))

/-- SET_NOTICE_MASK. -/
def execSetNoticeMask (params : List Byte) (s : State) : Host.Outcome State Fault Refusal :=
  let frame := frameOf codeSetNoticeMask params
  .next (takeWrite codeSetNoticeMask (hasLength 3 frame) (ownerSetNoticeMask frame) s)

/-- FLUSH NOTICES at its take (R144, R159). -/
def ownerFlushNotices (s : State) : Answer :=
  if s.notice.ring = .active then .ok (s.updNotice (fun n => { n with flush := true })) else refuseState

/-- FLUSH_NOTICES. -/
def execFlushNotices (params : List Byte) (s : State) : Host.Outcome State Fault Refusal :=
  let frame := frameOf codeFlushNotices params
  .next (takeWrite codeFlushNotices (hasLength 1 frame) ownerFlushNotices s)

/-! ### Soft reset -/

/-- Step 3 of R163 for one window: every request of it in stage WAITING with no piece issued is answered DENIED RESET. -/
def resetWaits (slotted : Bool) (w : Fin 16) (s : State) : State :=
  if s.windows[w].state.working = true ∧ (s.definition w).any (fun d => decide (d.isSlotted = slotted)) = true then
    answerAll (Entry.deniable w) .reset s
  else s

/-- Step 6 of R163: the view unit stops its idle timers (R122). -/
def stopIdleTimers (s : State) : State :=
  { s with views := s.views.map (fun vs => vs.map (Option.map (fun v => { v with timer := none }))) }

/-- The take of SOFT RESET: the six steps of R163 in order, then the test of R164. -/
def takeSoftReset (s : State) : State :=
  let t := s.updLink (fun l => { l with part := .resetting })
  let t := forWindows (fun w t => discardAll w .reset t) t
  let t := answerAll Entry.inFenceWait .reset t
  let t := forWindows (resetWaits true) t
  let t := forWindows (resetWaits false) t
  let t := forWindows dropJobs t
  let t := t.updNotice (fun n => { n with holdoff := .stopped })
  testReset (stopIdleTimers t)

/-- SOFT_RESET. -/
def execSoftReset (params : List Byte) (s : State) : Host.Outcome State Fault Refusal :=
  let frame := frameOf codeSoftReset params
  .next (takeWrite codeSoftReset (hasLength 1 frame) (fun s => .ok (takeSoftReset s)) s)

/-! ### A frame that names no command -/

/-- UNKNOWN_COMMAND_FRAME: refused REFUSED_FRAME, its code recorded as received (R153, R154). A code that names a command
is no such frame (log 10). -/
def execUnknownCommandFrame (code : Byte) (_params : List Byte) (s : State) : Host.Outcome State Fault Refusal :=
  .next (if namesCommand code then s else takeWrite code false (fun s => .ok s) s)

end Sys2Proof.Machine
end

