-- ==== Sys2Proof/Machine/LinkReads.lean ====
section
/-! DEFINITION. The read commands of the management link: their take (R152) and the status records (R160, R161, R170). -/

namespace Sys2Proof.Machine

/-! ### The taking of a read command -/

/-- The take of a read command with `selectors` selector bytes, at the completion of the last of them: the record is
captured, and SDO will carry the dummy byte and then the record; the frame goes on until SSEL rises (R151, R152). With
fewer selector bytes it is a frame that ended before its take, which has no effect but that it has ended. While the link
waits for SSEL to rise after a reset there is no frame (R151). -/
def takeRead (code : Byte) (selectors : Nat) (params : List Byte) (capture : State → List Byte) (s : State) : State :=
  if s.link.awaitRise then s else
  if params.length < selectors then s.updLink (fun l => { l with frame := none }) else
    s.updLink (fun l =>
      { l with frame := some ⟨code :: params.take selectors, [], 0 :: capture s, false⟩ })

/-- The record sent for a selector outside its range: every byte 0xFF (R152). -/
def outOfRange (size : Nat) : List Byte := List.replicate size 0xFF

/-- A record with places filled up with 0x00 to its size (R167). -/
def fillTo (size : Nat) (bytes : List Byte) : List Byte := bytes ++ List.replicate (size - bytes.length) 0

/-! ### The records -/

/-- The window definition record, 45 bytes (R160, R170). -/
def definitionRecord (s : State) (w : Fin 16) : List Byte :=
  if s.windows[w].state = .undefined then List.replicate 45 0 else
  match s.definition w with
  | none => List.replicate 45 0
  | some d => fillTo 45 (1 :: definitionBytes d)

/-- READ_WINDOW_DEFINITION. -/
def execReadWindowDefinition (params : List Byte) (s : State) : Host.Outcome State Fault Refusal :=
  .next (takeRead codeReadWindowDefinition 1 params (fun s =>
    match number 16 (params.getD 0 0).toNat with
    | none => outOfRange 45
    | some w => definitionRecord s w) s)

/-- R170: the code of a window's state. -/
def winStateCode : WinState → Byte
  | .undefined => 0
  | .defined => 1
  | .live => 2
  | .halted => 3
  | .draining => 4

/-- R170: the code of a slot's state. -/
def slotStateCode : SlotState → Byte
  | .free => 1
  | .filling _ => 2
  | .sealed _ _ => 3
  | .published _ => 4
  | .retiring => 5

/-- The slot entry of the window status record, 12 bytes; NONE with counts 0 for a record that does not exist (R170). -/
def slotBytes : Option Slot → List Byte
  | none => List.replicate 12 0
  | some x =>
    [slotStateCode x.state, BitVec.ofNat 8 x.pins, BitVec.ofNat 8 x.inFlight, BitVec.ofNat 8 x.waiting,
     BitVec.ofNat 8 ((x.work.map Work.written).getD 0), 0, 0, 0] ++
    match x.state with
    | .published g => leBytes 4 g.toNat
    | _ => [0, 0, 0, 0]

/-- The generation counter, front, filling and sealed slot of the window status record (R160, R170). -/
def slotFieldBytes : Option SlotUnit → List Byte
  | none => [0, 0, 0, 0, 0, 0xFF, 0xFF]
  | some u =>
    leBytes 4 u.counter.toNat ++ [BitVec.ofNat 8 u.front.val, numberByte u.filling, numberByte u.sealed]

/-- The origin, advance serial and target line of the window status record: T + V for a rolling window whose roll state is
absent (R90, R160). -/
def rollFieldBytes (d : Option Definition) (u : Option RollState) : List Byte :=
  match d with
  | none => [0, 0, 0, 0, 0, 0]
  | some d =>
    match d.geometry, u with
    | .slotted _ _ _, _ => [0, 0, 0, 0, 0, 0]
    | .rolling top visible _ _ _, none => [0, 0, 0, 0, 0, BitVec.ofNat 8 (top + visible)]
    | .rolling top _ _ _ _, some u =>
      [BitVec.ofNat 8 u.origin] ++ leBytes 4 u.serial.toNat ++ [BitVec.ofNat 8 (top + d.targetPosition u.origin)]

/-- The window status record, 68 bytes (R160, R170). -/
def windowStatusRecord (s : State) (w : Fin 16) : List Byte :=
  let x := s.windows[w]
  let kind : Byte := match s.definition w with
    | none => 0
    | some d => if d.isSlotted then 1 else 2
  [winStateCode x.state, if x.state = .undefined then 0 else kind,
   if x.state = .halted then BitVec.ofNat 8 ((x.haltCause.map causeCode).getD 0) else 0,
   if x.state.working then BitVec.ofNat 8 x.waiting else 0,
   BitVec.ofNat 8 s.commits[w].queue.length, flagByte s.commits[w].current.isSome] ++
  slotFieldBytes s.slots[w] ++ rollFieldBytes (s.definition w) s.rolls[w] ++ [0] ++
  slotNumbers.flatMap (fun i => slotBytes (s.slot w i))

/-- READ_WINDOW_STATUS. -/
def execReadWindowStatus (params : List Byte) (s : State) : Host.Outcome State Fault Refusal :=
  .next (takeRead codeReadWindowStatus 1 params (fun s =>
    match number 16 (params.getD 0 0).toNat with
    | none => outOfRange 68
    | some w => windowStatusRecord s w) s)

/-- The view status record, 10 bytes (R109, R170). -/
def viewRecord : Option View → List Byte
  | none => List.replicate 10 0
  | some v =>
    (match v.state with
      | .unpinned => [1, 0, 0, 0, 0, 0, 0, 0]
      | .pinnedSlot i g => [2, BitVec.ofNat 8 i.val, 0, 0] ++ leBytes 4 g.toNat
      | .pinnedOrigin x lag => [2, 0, BitVec.ofNat 8 x, BitVec.ofNat 8 lag, 0, 0, 0, 0]
      | .torn => [3, 0, 0, 0, 0, 0, 0, 0]) ++ leBytes 2 v.frames.toNat

/-- READ_VIEW_STATUS. -/
def execReadViewStatus (params : List Byte) (s : State) : Host.Outcome State Fault Refusal :=
  .next (takeRead codeReadViewStatus 2 params (fun s =>
    match number 16 (params.getD 0 0).toNat, number 8 (params.getD 1 0).toNat with
    | some w, some c => viewRecord (s.view w c)
    | _, _ => outOfRange 10) s)

/-- R169: the code of a frame source. -/
def sourceCode : FrameSource → Byte
  | .line => 1
  | .firstBlock => 2

/-- The consumer record, 5 bytes (R106, R170). -/
def consumerRecord : Option Binding → List Byte
  | none => [0, 0, 0, 0, 0]
  | some b => [1, BitVec.ofNat 8 b.master.val, sourceCode b.source] ++ leBytes 2 b.idle

/-- READ_CONSUMER. -/
def execReadConsumer (params : List Byte) (s : State) : Host.Outcome State Fault Refusal :=
  .next (takeRead codeReadConsumer 1 params (fun s =>
    match number 8 (params.getD 0 0).toNat with
    | none => outOfRange 5
    | some c => consumerRecord s.consumers[c]) s)

/-- R170: the code of the ring state. -/
def ringStateCode : RingState → Byte
  | .unset => 0
  | .active => 1
  | .faulted => 2

/-- The ring status record, 10 bytes (R146, R170). -/
def ringRecord (n : NoticeUnit) : List Byte :=
  [ringStateCode n.ring, flagByte n.indexError, BitVec.ofNat 8 n.lost, 0] ++
  leBytes 2 n.write ++ leBytes 2 n.consumed ++ leBytes 2 n.writtenBack

/-- READ_RING_STATUS: the record is captured, and then INDEX_ERROR is cleared (R146). -/
def execReadRingStatus (params : List Byte) (s : State) : Host.Outcome State Fault Refusal :=
  .next (if s.link.awaitRise then s else
    (takeRead codeReadRingStatus 0 params (fun s => ringRecord s.notice) s).updNotice
      (fun n => { n with indexError := false }))

/-- The number of memory places in use (R17). -/
def placesInUse (s : State) : Nat := placeNumbers.countP (fun (i : Fin 32) => s.places[i].isSome)

/-- The number of windows whose in-flight piece count or waiting request count is above 0 (R161). -/
def busyWindows (s : State) : Nat :=
  windowNumbers.countP (fun (w : Fin 16) => decide (0 < s.windows[w].inFlight) || decide (0 < s.windows[w].waiting))

/-- The part status record, 12 bytes (R161, R170). -/
def partRecord (s : State) : List Byte :=
  [flagByte (decide (s.link.part = .resetting)), BitVec.ofNat 8 (placesInUse s), flagByte s.copier.copy.isSome,
   flagByte s.notice.inFlight.isSome, BitVec.ofNat 8 (busyWindows s), 0, 0, 0] ++ leBytes 4 s.timebase.toNat

/-- READ_PART_STATUS. -/
def execReadPartStatus (params : List Byte) (s : State) : Host.Outcome State Fault Refusal :=
  .next (takeRead codeReadPartStatus 0 params partRecord s)

/-- R170: the code of a result. -/
def resultCode : Result → Byte
  | .accepted => 0
  | .refusedState => 1
  | .refusedParam => 2
  | .refusedBusy => 3
  | .refusedFrame => 4

/-- The result record as sent, 4 bytes (R154, R170). -/
def resultBytes (r : ResultRecord) : List Byte :=
  [resultCode r.result, r.lastCommand.getD 0, BitVec.ofNat 8 r.param, r.sequence]

/-- READ_RESULT. -/
def execReadResult (params : List Byte) (s : State) : Host.Outcome State Fault Refusal :=
  .next (takeRead codeReadResult 0 params (fun s => resultBytes s.link.result) s)

end Sys2Proof.Machine
end

