-- ==== Sys2Proof/Machine/Dispatch.lean ====
section
/-! DEFINITION. The meaning of every command: one arm for each constructor of `Instr`. -/

namespace Sys2Proof.Machine

def exec (i : Instr) (s : State) : Host.Outcome State Fault Refusal :=
  match i with
  | .requestArrival master request => Sys2Proof.Machine.execRequestArrival master request s
  | .classification master => Sys2Proof.Machine.execClassification master s
  | .issueGrant => Sys2Proof.Machine.execIssueGrant s
  | .pieceCompletion tag status data => Sys2Proof.Machine.execPieceCompletion tag status data s
  | .copierBurstCompletion tag status data => Sys2Proof.Machine.execCopierBurstCompletion tag status data s
  | .recordWriteCompletion tag status => Sys2Proof.Machine.execRecordWriteCompletion tag status s
  | .writeBackCompletion tag status => Sys2Proof.Machine.execWriteBackCompletion tag status s
  | .responseSent master => Sys2Proof.Machine.execResponseSent master s
  | .hardReset sselLow => Sys2Proof.Machine.execHardReset sselLow s
  | .frameLineEvent line => Sys2Proof.Machine.execFrameLineEvent line s
  | .slotWaitTimerExpiry master => Sys2Proof.Machine.execSlotWaitTimerExpiry master s
  | .visibilityWaitTimerExpiry master => Sys2Proof.Machine.execVisibilityWaitTimerExpiry master s
  | .idleExpiry window consumer => Sys2Proof.Machine.execIdleExpiry window consumer s
  | .holdoffExpiry => Sys2Proof.Machine.execHoldoffExpiry s
  | .commitTake window => Sys2Proof.Machine.execCommitTake window s
  | .drainCompletion window => Sys2Proof.Machine.execDrainCompletion window s
  | .softResetClearing => Sys2Proof.Machine.execSoftResetClearing s
  | .defineWindow params => Sys2Proof.Machine.execDefineWindow params s
  | .setCommitWord params => Sys2Proof.Machine.execSetCommitWord params s
  | .undefineWindow params => Sys2Proof.Machine.execUndefineWindow params s
  | .enableWindow params => Sys2Proof.Machine.execEnableWindow params s
  | .drainWindow params => Sys2Proof.Machine.execDrainWindow params s
  | .resumeWindow params => Sys2Proof.Machine.execResumeWindow params s
  | .setStallLimit params => Sys2Proof.Machine.execSetStallLimit params s
  | .publish params => Sys2Proof.Machine.execPublish params s
  | .abandon params => Sys2Proof.Machine.execAbandon params s
  | .bindConsumer params => Sys2Proof.Machine.execBindConsumer params s
  | .unbindConsumer params => Sys2Proof.Machine.execUnbindConsumer params s
  | .setNoticeRing params => Sys2Proof.Machine.execSetNoticeRing params s
  | .setNoticeMask params => Sys2Proof.Machine.execSetNoticeMask params s
  | .flushNotices params => Sys2Proof.Machine.execFlushNotices params s
  | .softReset params => Sys2Proof.Machine.execSoftReset params s
  | .unknownCommandFrame code params => Sys2Proof.Machine.execUnknownCommandFrame code params s
  | .readWindowDefinition params => Sys2Proof.Machine.execReadWindowDefinition params s
  | .readWindowStatus params => Sys2Proof.Machine.execReadWindowStatus params s
  | .readViewStatus params => Sys2Proof.Machine.execReadViewStatus params s
  | .readConsumer params => Sys2Proof.Machine.execReadConsumer params s
  | .readRingStatus params => Sys2Proof.Machine.execReadRingStatus params s
  | .readPartStatus params => Sys2Proof.Machine.execReadPartStatus params s
  | .readResult params => Sys2Proof.Machine.execReadResult params s
  | .timebaseIncrement => Sys2Proof.Machine.execTimebaseIncrement s
  | .sselRiseAfterReset => Sys2Proof.Machine.execSselRiseAfterReset s

end Sys2Proof.Machine
end

