-- ==== Sys2Proof/Machine/LinkPins.lean ====
section
/-! DEFINITION. The pins of the management link (R151): the frame assembler, which shifts a frame in and out edge by edge,
and the commands that a frame's bytes come to (R152, R153, R168). -/

namespace Sys2Proof.Machine

/-! ### The frame assembler -/

/-- A frame begins when SSEL falls: nothing is received yet, and SDO carries 0x00 (R151; SDO: log 26). -/
def Frame.start : Frame := ⟨[], [], [], false⟩

/-- Eight bits make a byte, the most significant first (R151). -/
def byteOfBits (bits : List Bool) : Byte := BitVec.ofNat 8 (bits.foldl (fun n b => 2 * n + b.toNat) 0)

/-- A rising edge of SCK shifts one bit in from SDI; the eighth completes the byte, and SDO's next byte is due (R151). -/
def Frame.shiftIn (sdi : Bool) (f : Frame) : Frame :=
  if f.bits.length < 7 then { f with bits := f.bits ++ [sdi] }
  else { f with bytes := f.bytes ++ [byteOfBits (f.bits ++ [sdi])], bits := [], out := f.out.tail }

/-- A falling edge of SCK shifts one bit out on SDO, most significant bit first: the bit that stands where the bit about to
come in stands (R151; log 26). -/
def Frame.shiftOut (f : Frame) : Frame := { f with sdo := (f.out.headD 0).getMsbD f.bits.length }

/-- The level on SDO, none while it is not driven (R151): a frame drives it, and SSEL high leaves it undriven. -/
def Link.sdo (l : Link) : Option Bool :=
  match l.frame with
  | some f => some f.sdo
  | none => if l.awaitRise then Config.sdoBeforeFrame else none

/-! ### The command of a frame -/

/-- The write commands by their codes (R168). -/
def writeCommands : List (Byte × (List Byte → Instr)) :=
  [(codeDefineWindow, .defineWindow), (codeSetCommitWord, .setCommitWord), (codeUndefineWindow, .undefineWindow),
   (codeEnableWindow, .enableWindow), (codeDrainWindow, .drainWindow), (codeResumeWindow, .resumeWindow),
   (codeSetStallLimit, .setStallLimit), (codePublish, .publish), (codeAbandon, .abandon),
   (codeBindConsumer, .bindConsumer), (codeUnbindConsumer, .unbindConsumer), (codeSetNoticeRing, .setNoticeRing),
   (codeSetNoticeMask, .setNoticeMask), (codeFlushNotices, .flushNotices), (codeSoftReset, .softReset)]

/-- The read commands by their codes, each with the number of its selector bytes (R152, R168). -/
def readCommands : List (Byte × Nat × (List Byte → Instr)) :=
  [(codeReadWindowDefinition, 1, .readWindowDefinition), (codeReadWindowStatus, 1, .readWindowStatus),
   (codeReadViewStatus, 2, .readViewStatus), (codeReadConsumer, 1, .readConsumer),
   (codeReadRingStatus, 0, .readRingStatus), (codeReadPartStatus, 0, .readPartStatus), (codeReadResult, 0, .readResult)]

/-- The read command whose take comes as the last of these bytes is complete (R152). -/
def readTaken : List Byte → Option Instr
  | [] => none
  | code :: params =>
    match readCommands.lookup code with
    | some (selectors, command) => if params.length = selectors then some (command params) else none
    | none => none

/-- The write command that a frame of these complete bytes comes to when SSEL rises: none for a frame without a command
and for a read frame; a code that names no command is taken as a write command (R151 to R153). -/
def writeTaken : List Byte → Option Instr
  | [] => none
  | code :: params =>
    if (readCommands.lookup code).isSome then none else
    match writeCommands.lookup code with
    | some command => some (command params)
    | none => some (.unknownCommandFrame code params)

/-! ### The edges -/

/-- SSEL falls: a frame begins, unless the link waits for SSEL to rise after a reset. There is one frame at a time (R151).
-/
def sselFalls (s : State) : State :=
  if s.link.awaitRise = true ∨ s.link.frame.isSome = true then s
  else s.updLink (fun l => { l with frame := some .start })

/-- SCK rises: the frame in progress takes in a bit, and the take of a read command comes with the completion of its last
selector byte, or of its code byte where it has none (R151, R152). -/
def sckRises (sdi : Bool) (s : State) : Host.Outcome State Fault Refusal :=
  match s.link.frame with
  | none => .next s
  | some f =>
    let g := f.shiftIn sdi
    let t := s.updLink (fun l => { l with frame := some g })
    match (if g.bits = [] then readTaken g.bytes else none) with
    | some c => exec c t
    | none => .next t

/-- SSEL rises: the frame ends, the bits of an incomplete byte being discarded, and its write command is taken, if it has
one (R151, R153). While the link waits for SSEL to rise after a reset, the wait ends. -/
def sselRises (s : State) : Host.Outcome State Fault Refusal :=
  match s.link.frame with
  | none => if s.link.awaitRise then exec .sselRiseAfterReset s else .next s
  | some f =>
    match writeTaken f.bytes with
    | some c => exec c s
    | none => .next (s.updLink (fun l => { l with frame := none }))

/-- The part takes an edge on a pin of the link. An edge of SCK while no frame is in progress shifts nothing (R151). -/
def takeEdge (e : LinkEdge) (s : State) : Host.Outcome State Fault Refusal :=
  match e with
  | .sselFall => .next (sselFalls s)
  | .sckRise sdi => sckRises sdi s
  | .sckFall => .next (s.updLink (fun l => { l with frame := l.frame.map Frame.shiftOut }))
  | .sselRise => sselRises s

end Sys2Proof.Machine
end

