-- ==== Sys2Proof/Machine/Step.lean ====
section
/-! DEFINITION. One step of the part: the command at the front of the queue is carried out, or the next edge on the link's
pins is taken (log 1); and the host's way of putting a command in the queue. -/

namespace Sys2Proof.Machine

/-- One step: `exec` of the command at the front of the queue, on the state with the queue's rest. With no command
waiting the part takes the next edge on the link's pins, and without one it idles (log 1, 8). -/
def step (s : State) : Host.Outcome State Fault Refusal :=
  match s.pending with
  | c :: rest => exec c { s with pending := rest }
  | [] =>
    match s.edges with
    | e :: rest => takeEdge e { s with edges := rest }
    | [] => .next s

/-- `s` with the command that the table word `w` spells put at the front of its queue; no word spells one (log 3). -/
def State.withFetchWord (s : State) (nbits w : Nat) : State :=
  match decodeTableWord nbits w with
  | none => s
  | some c => { s with pending := c :: s.pending }

end Sys2Proof.Machine
end

