-- ==== Sys2Proof/Safety.lean ====
section
/-! DEFINITION. What counts as a safe run: no command stops the part (log 2), and the invariants of the blocks' own rules
hold, in the terms the statements use. -/

namespace Sys2Proof.Machine

/-- The command at the front of the queue is carried out: the step answers a next state. -/
def Safe (s : State) : Prop := ∃ t, step s = .next t

/-- R123, R128, R131: the fence of a window is up exactly while a commit is in progress, and at most 4 commits are
queued. -/
def CommitState.wf (c : CommitState) : Prop := c.fence = c.current.isSome ∧ c.queue.length ≤ 4

/-- R139, R147: at most 32 notices are pending, the lost count stays within a byte, and ATTN is asserted exactly when
the ring is FAULTED, or ACTIVE with its written-back index differing from its consumed index. -/
def NoticeUnit.reporting (n : NoticeUnit) : Prop :=
  n.pending.length ≤ 32 ∧ n.lost ≤ 255 ∧
  (n.attn = true ↔ n.ring = .faulted ∨ (n.ring = .active ∧ n.writtenBack ≠ n.consumed))

/-- R136, R138: the ring has a definition exactly while it is ACTIVE or FAULTED, its entry count is one of the nine,
and its three indices lie in 0 to entries − 1; so does the value of a write-back in flight that is not stale. -/
def NoticeUnit.indexed (n : NoticeUnit) : Prop :=
  (n.ring = .unset ↔ n.definition = none) ∧
  (∀ d, n.definition = some d →
    d.entries ∈ ringSizes ∧ n.write < d.entries ∧ n.consumed < d.entries ∧ n.writtenBack < d.entries) ∧
  (∀ f, n.inFlight = some f → f.stale = false →
    ∃ d, n.definition = some d ∧ ∀ v, f.write = .writeBack v → v < d.entries)

/-- R4, R5, R123, R151: no intake queue holds more than 8 requests, no response list more than 16 entries, every commit
unit's state is well formed, and a frame in progress has fewer than 8 bits of its incomplete byte, the link not waiting
for SSEL to rise. -/
def State.bounded (s : State) : Prop :=
  (∀ m : Fin 16, s.intake[m].length ≤ 8) ∧ (∀ m : Fin 16, s.responses[m].length ≤ 16) ∧
  (∀ w : Fin 16, s.commits[w].wf) ∧ ∀ f, s.link.frame = some f → f.bits.length < 8 ∧ s.link.awaitRise = false

/-- R6: each master has at most one entry in stage WAITING, and the model's entry numbers are distinct and already
drawn (log 5). -/
def State.oneWaiting (s : State) : Prop :=
  ∀ m : Fin 16, (s.responses[m].map Entry.id).Nodup ∧ (∀ e ∈ s.responses[m], e.id < s.nextId) ∧
    s.responses[m].countP Entry.isWaiting ≤ 1

/-- All guarded regions of R30: those of every window that is not UNDEFINED, then those of the ring. -/
def State.guarded (s : State) : List Region := s.windowRegions none ++ s.ringRegions

/-- R30: no two guarded regions share a byte. -/
def State.regionsApart (s : State) : Prop := s.guarded.Pairwise (fun a b => touches a b = false)

/-- R88: while the part is RESETTING the copier has no urgent entry and no backfill job, and its copy in progress, if
any, is dropped. -/
def State.copierStopped (s : State) : Prop :=
  s.link.part = .resetting →
    s.copier.urgent = [] ∧ (∀ w : Fin 16, s.copier.jobs[w] = none) ∧ ∀ y, s.copier.copy = some y → y.dropped = true

/-! ### Terms of the statements -/

/-- R6: `r` is the head request of master `m`, and it may be classified. -/
def State.mayTake (s : State) (m : Fin 16) (r : Request) : Prop :=
  (∃ rest, s.intake[m] = r :: rest) ∧ s.current m = none ∧ s.responses[m].length < 16

/-- R7 to R11: `r` is the head request of master `m`, may be classified, and is a window request of window `w`, whose
definition is `d`. -/
def State.windowHead (s : State) (m : Fin 16) (r : Request) (w : Fin 16) (d : Definition) : Prop :=
  s.mayTake m r ∧ crossesPage r = false ∧ s.link.part = .running ∧ insideWindow r s = some w ∧
  isWatchedWrite r s = false ∧ s.definition w = some d

/-- The number of a contender in the fixed order of R17: the masters, the notice writer, the copier. -/
def Contender.index : Contender → Nat
  | .master m => m.val
  | .noticeWriter => 16
  | .copier => 17

/-- R17: how many contenders the rotation passes over on its way from the one last granted to `c`. -/
def turnsTo (last c : Contender) : Nat := (c.index + 17 - last.index) % 18

/-- R17: the next grant gives place `i`, the free place that the model numbers lowest (log 5), to contender `c`. -/
def State.nextGrant (s : State) (c : Contender) (i : Fin 32) : Prop :=
  freePlace s = some i ∧ contends s c = true ∧
  ∀ c', contends s c' = true → turnsTo s.lastGranted c ≤ turnsTo s.lastGranted c'

/-- R151, R155: the link takes a command frame now, and the part is RUNNING. -/
def State.linkReady (s : State) : Prop := s.link.part = .running ∧ s.link.awaitRise = false

/-- R151, R154: the link after the take of a write command: the record's four fields, and no frame in progress. -/
def Link.recorded (l : Link) (code : Byte) (result : Result) (index : Nat) : Link :=
  { l with
    result := { lastCommand := some code, result := result, param := index, sequence := l.result.sequence + 1 },
    frame := none }

/-- R151, R152: the link after the take of a read command: the frame so far is in progress, and SDO, still at the last
bit of 0x00, has the dummy byte and then the record to carry. -/
def Link.captured (l : Link) (frame record : List Byte) : Link :=
  { l with frame := some { bytes := frame, bits := [], out := 0 :: record, sdo := false } }

/-- The parameter byte that names a window or a consumer (R169). -/
def byteOf {n : Nat} (x : Fin n) : Byte := BitVec.ofNat 8 x.val

/-- No producer write of window `w` is in a fence wait (R129). -/
def State.noneFenced (s : State) (w : Fin 16) : Prop := ∀ m e, s.current m = some e → e.fencedAt w = false

/-! ### The states that the statements name -/

/-- R5, R13, R20: the state after the head request `r` of master `m` is refused at classification: a COMPLETE entry,
answered DENIED with zero data, and the notice of the refusal. -/
def State.refused (s : State) (m : Fin 16) (r : Request) (w : Option (Fin 16)) (reason : Reason) : State :=
  { popIntake m s with
    responses := s.responses.set m (s.responses[m] ++ [newEntry s.nextId r w (.complete (deniedResponse r)) []])
    nextId := s.nextId + 1
    notice := s.notice.take (deniedNotice w m reason r) s.timebase }

/-- R5, R15, R36: the state after the head request `r` of master `m` enters WAITING for window `w` with these pieces,
and is counted in the window's waiting request count. -/
def State.admitted (s : State) (m : Fin 16) (r : Request) (w : Fin 16) (wait : Wait) (pieces : List Piece)
    (closing : Bool) : State :=
  { popIntake m s with
    responses := s.responses.set m (s.responses[m] ++
      [{ newEntry s.nextId r (some w) (.waiting wait) pieces with closing := closing }])
    nextId := s.nextId + 1
    windows := s.windows.set w { s.windows[w] with waiting := s.windows[w].waiting + 1 } }

/-- R9, R12: the state after the head request `r` of master `m` enters WAITING with a single piece at its own address.
-/
def State.passed (s : State) (m : Fin 16) (r : Request) (created unresolved : Nat) : State :=
  { popIntake m s with
    responses := s.responses.set m (s.responses[m] ++
      [{ newEntry s.nextId r none (.waiting .mapped) [plainPiece r.addr r.beats r.data 0] with
          created := created, unresolved := unresolved }])
    nextId := s.nextId + 1 }

/-- Changes the records of one slotted window. -/
def State.onSlots (s : State) (w : Fin 16) (f : SlotUnit → SlotUnit) : State :=
  { s with slots := s.slots.set w (s.slots[w].map f) }

/-- Changes one slot record. -/
def SlotUnit.onSlot (u : SlotUnit) (i : Fin 4) (f : Slot → Slot) : SlotUnit :=
  { u with slots := u.slots.set i (u.slots[i].map f) }

/-- R54: a producer write piece issued to block `b` marks it WRITTEN, and counts it if it was not WRITTEN. -/
def Work.wrote (b : Nat) (k : Work) : Work :=
  if b < k.map.length ∧ k.map[b]? ≠ some .written then
    { k with map := k.map.set b .written, written := k.written + 1 }
  else k

/-- R54: only a FILLING or SEALED slot has a block map to mark. -/
def SlotState.wrote (b : Nat) : SlotState → SlotState
  | .filling k => .filling (k.wrote b)
  | .sealed k tag => .sealed (k.wrote b) tag
  | x => x

/-- R49, R54: a piece of a request of this kind to block `b` of the slot is issued. -/
def Slot.issued (kind : Kind) (b : Nat) (x : Slot) : Slot :=
  { x with
    waiting := x.waiting - 1
    inFlight := x.inFlight + 1
    state := match kind with
      | .read => x.state
      | .write => x.state.wrote b }

/-- R143: one of the five conditions under which a write-back is due holds, in a ring that is ACTIVE. -/
def NoticeUnit.announces (n : NoticeUnit) (d : RingDef) : Prop :=
  d.threshold ≤ (n.write + d.entries - n.writtenBack) % d.entries ∨
  (0 < (n.write + d.entries - n.writtenBack) % d.entries ∧
    (d.holdoff = 0 ∨ n.holdoff = .expired ∨ (n.write + d.entries - n.consumed) % d.entries = d.entries - 1)) ∨
  n.flush = true

/-- R23, R164: no soft reset is in progress whose conditions already hold together. -/
def State.notClearing (s : State) : Prop := s.link.part = .running ∨ resetReady s = false

/-- R41: nothing of a window remains to wait for. -/
def State.nothingLeft (s : State) (w : Fin 16) : Prop :=
  s.windows[w].inFlight = 0 ∧ s.windows[w].waiting = 0 ∧ s.commits[w].current = none ∧ s.commits[w].queue = [] ∧
  (∀ u ∈ s.copier.urgent, u.window ≠ w) ∧ isCandidate s w = false ∧ ∀ y, s.copier.copy = some y → y.window ≠ w

/-- R41, R68, R74, R105, R122: a window made DEFINED, its working state removed. -/
def State.emptied (s : State) (w : Fin 16) : State :=
  { s with
    windows := s.windows.set w { s.windows[w] with state := .defined, inFlight := 0, waiting := 0, haltCause := none }
    slots := s.slots.set w none
    rolls := s.rolls.set w none
    views := s.views.set w (Vector.replicate 8 none)
    copier := { s.copier with jobs := s.copier.jobs.set w none } }

/-- R165: in `t` the part whose state was `s` has cleared at the end of a soft reset: every window that had working state
is DEFINED without it, the ring is empty, its RESET_DONE posted, and what R165 keeps is kept. -/
def State.cleared (s t : State) : Prop :=
  t.copier.pointer = 15 ∧
  (∀ w : Fin 16, s.windows[w].state.working = true →
    t.windows[w] = { state := .defined, definition := s.windows[w].definition, inFlight := 0, waiting := 0,
                     haltCause := none } ∧
    t.slots[w] = none ∧ t.rolls[w] = none ∧ (∀ c, t.view w c = none) ∧ t.copier.jobs[w] = none) ∧
  t.notice = NoticeUnit.take
    { s.notice with
      ring := if s.notice.ring = .faulted then .active else s.notice.ring
      write := 0, consumed := 0, writtenBack := 0, sequence := 0, lost := 0, pending := [], indexError := false
      owed := decide (s.notice.ring ≠ .unset), attn := false } .resetDone s.timebase ∧
  t.intake = s.intake ∧ t.consumers = s.consumers ∧ t.timebase = s.timebase ∧ t.places = s.places

/-- R110: the view is PINNED to slot `i`. -/
def View.pinsSlot (v : View) (i : Fin 4) : Bool :=
  match v.state with
  | .pinnedSlot j _ => decide (j = i)
  | .unpinned | .pinnedOrigin _ _ | .torn => false

/-- R96: the view is PINNED with a lag of S or more, and so sees the target line. -/
def View.sees (d : Definition) (v : View) : Bool :=
  match v.state with
  | .pinnedOrigin _ lag => decide (d.staging ≤ lag)
  | .unpinned | .pinnedSlot _ _ | .torn => false

/-- R55, R61: a slot other than the front after a view releases it: its pin count falls by one, and where it is PUBLISHED
with no pin left and no source hold it becomes RETIRING while a count of it is above 0, else FREE. -/
def Slot.released (x : Slot) : Slot :=
  { x with
    pins := x.pins - 1
    state := if x.isPublished = true ∧ x.pins ≤ 1 ∧ x.hold = false then
        if x.inFlight = 0 ∧ x.waiting = 0 then .free else .retiring
      else x.state }

/-- R46, R55, R61: a view of window `w`, whose slots are `u`, releases its pin on slot `i`, of record `x`, and the slot is
then allocated: the pin is its last, it retires and is FREE, and the window is LIVE with no other slot to fill. -/
def State.frees (s : State) (w : Fin 16) (u : SlotUnit) (i : Fin 4) (x : Slot) : Prop :=
  x.isPublished = true ∧ x.pins ≤ 1 ∧ x.hold = false ∧ x.inFlight = 0 ∧ x.waiting = 0 ∧ s.windows[w].state = .live ∧
  u.filling = none ∧ u.sealed = none ∧ ∀ j < i, ∀ y, u.slots[j] = some y → y.state ≠ .free

/-- R46, R61: what a view of window `w` releases does not lead to an allocation: the pin is not the slot's last, or the
slot is held, in use or no longer PUBLISHED, or the window is not LIVE or has a FILLING or a SEALED slot. -/
def State.freesNone (s : State) (w : Fin 16) (u : SlotUnit) (x : Slot) : Prop :=
  x.isPublished = false ∨ 1 < x.pins ∨ x.hold = true ∨ x.inFlight ≠ 0 ∨ x.waiting ≠ 0 ∨ s.windows[w].state ≠ .live ∨
  u.filling ≠ none ∨ u.sealed ≠ none

/-- R65: a write of window `w` in a slot wait. -/
def Entry.awaitsSlot (w : Fin 16) (e : Entry) : Bool := decide (e.window = some w) && e.inSlotWait

/-- R97: a write of window `w` in a visibility wait. -/
def Entry.awaitsTarget (w : Fin 16) (e : Entry) : Bool :=
  e.isWaiting && decide (e.window = some w) && e.hasCond .visibility

/-- R65: no request of window `w` is in a slot wait. -/
def State.noneInSlotWait (s : State) (w : Fin 16) : Prop :=
  ∀ m e, s.current m = some e → e.window = some w → e.inSlotWait = false

/-- R111 to R115: the view after a read of its consumer whose first and last blocks are these, `pin` being the pin that
a frame start or a late pin would make at this moment: the progress mark is that of a PINNED view of a FIRST_BLOCK
consumer, and the idle timer restarts unless the idle limit is 0. -/
def View.afterRead (b : Binding) (pin : ViewState) (first last : Nat) (now : Micros) (v : View) : View :=
  let starts := b.source = .firstBlock ∧ first = 0 ∧
    (v.state = .unpinned ∨ v.state = .torn ∨ v.mark.any (fun k => decide (0 < k)) = true)
  let state := if starts ∨ v.state = .unpinned then pin else v.state
  let mark := if starts then none else v.mark
  { state := state
    frames := if starts then v.frames + 1 else v.frames
    mark := if b.source = .firstBlock ∧ state ≠ .unpinned ∧ state ≠ .torn then some (max (mark.getD 0) last) else mark
    timer := if b.idle = 0 then v.timer else some now }

/-- R128: a write that is in the drain set of a commit of window `w` that begins now: a write of the window, classified
and not yet completed, and not in a fence wait. -/
def Entry.drains (w : Fin 16) (e : Entry) : Bool :=
  decide (e.window = some w) && decide (e.request.kind = .write) &&
  (decide (e.stage = .waiting .mapped) || decide (e.stage = .waiting (.slot true)) ||
    decide (e.stage = .waiting (.slot false)) || decide (e.stage = .inFlight))

/-- R128: the number of writes in that drain set. -/
def State.drainCount (s : State) (w : Fin 16) : Nat :=
  (masters.map (fun (m : Fin 16) => s.responses[m].countP (Entry.drains w))).sum

/-- R128: commit `c` of window `w` has begun, `queue` staying queued: the fence is up and the drain set is fixed. -/
def State.begun (s : State) (w : Fin 16) (queue : List Commit) (c : Commit) : State :=
  { s with
    responses := s.responses.map (List.map (fun e => if e.drains w then { e with inDrain := true } else e))
    commits := s.commits.set w { queue := queue, current := some ⟨c, s.drainCount w⟩, fence := true } }

/-- R128, R131: what the begin of commit `c` of window `w` answers: with a drain count of 0 the commit is taken in the
same take, as COMMIT_TAKE takes it; else it waits for its drain set. -/
def State.begins (s : State) (w : Fin 16) (queue : List Commit) (c : Commit) : Host.Outcome State Fault Refusal :=
  if s.drainCount w = 0 then exec (.commitTake w) (s.begun w queue c) else .next (s.begun w queue c)

/-- R131, step 5: what follows a take in window `w`, its fence down: the head of a LIVE window's queue begins. -/
def State.afterTake (s : State) (w : Fin 16) : Host.Outcome State Fault Refusal :=
  match s.commits[w].queue with
  | [] => .next s
  | c :: rest => if s.windows[w].state = .live then s.begins w rest c else .next s

/-- R127: the reason with which a commit of a window in this state, with this many queued, is discarded at its arrival.
-/
def arrivalReason (x : WinState) (queued : Nat) : Option Reason :=
  match x with
  | .undefined | .defined => some .notLive
  | .halted => some .halted
  | .draining => some .closing
  | .live => if 4 ≤ queued then some .queueFull else none

/-- R47, R51: the pieces of a write that an allocation of slot `i` maps: each block of a new map under BACKFILL still
needs its copy. -/
def freshPieces (d : Definition) (i : Fin 4) (r : Request) : List Piece :=
  (cut d r).map (fun p =>
    { mapToSlot d i p with cond := if d.isBackfill = true ∧ p.unit < d.units then .copyWait else .clear })

/-- R46, R47, R71: in `t` slot `i` of window `w`, whose slots were `u` in `s`, has been allocated: it is FILLING with a
fresh block map and, under BACKFILL, the front as its source, and every write that was in a slot wait is mapped to it and
counted, its stall timer stopped. -/
def State.allocated (s t : State) (w : Fin 16) (i : Fin 4) (u : SlotUnit) (d : Definition) : Prop :=
  ∃ u' x' k', t.slots[w] = some u' ∧ u'.filling = some i ∧ u'.front = u.front ∧ u'.counter = u.counter ∧
    u'.slots[i] = some x' ∧ x'.state = .filling k' ∧ x'.inFlight = 0 ∧ k'.written = 0 ∧ k'.map.length = d.units ∧
    k'.source = (if d.isBackfill = true then some u.front else none) ∧
    x'.waiting = (masters.map (fun m => match s.current m with
      | some e => if e.awaitsSlot w = true then (cut d e.request).length else 0
      | none => 0)).sum ∧
    ∀ m e, s.current m = some e → e.awaitsSlot w = true →
      t.stallTimers[m] = none ∧ ∃ y, t.current m = some y ∧ y.id = e.id ∧ y.stage = .waiting .mapped ∧
        y.pieces = freshPieces d i e.request

/-- R96, R98: the state after a view of window `w`, of roll state `u`, leaves seeing: the seeing count falls by one, and
where it is then 0 with no counted read of the target position, every write of the window in a visibility wait is
released: its visibility conditions are clear and its stall timer is stopped. -/
def State.leftSeeing (s : State) (w : Fin 16) (d : Definition) (u : RollState) : State :=
  let clear : Bool := decide (u.seeing ≤ 1) && decide (u.readCount (d.targetPosition u.origin) = 0)
  { s with
    rolls := s.rolls.set w (some { u with seeing := u.seeing - 1 })
    responses := if clear then s.responses.map (List.map (fun e =>
        if e.awaitsTarget w then
          { e with pieces := e.pieces.map (fun p => { p with cond := if p.cond = .visibility then .clear else p.cond }) }
        else e))
      else s.responses
    stallTimers := if clear then
        Vector.ofFn (fun m => if s.responses[m].any (Entry.awaitsTarget w) then none else s.stallTimers[m])
      else s.stallTimers }

/-- R25 to R28: the fields of a definition lie in their own ranges. -/
def Definition.wf (d : Definition) : Prop :=
  d.sizeCode ≤ 8 ∧ d.base.toNat % d.blockSize = 0 ∧ d.base.toNat + d.rangeLength ≤ 2 ^ 40 ∧
  1 ≤ d.limit ∧ d.limit ≤ 65535 ∧ (∀ a, d.word = some a → a.toNat % 8 = 0) ∧
  match d.geometry with
  | .slotted blocks _ bases =>
    1 ≤ blocks ∧ blocks ≤ 64 ∧ 2 ≤ bases.length ∧ bases.length ≤ 4 ∧
    ∀ a ∈ bases, a.toNat % d.blockSize = 0 ∧ a.toNat + blocks * d.blockSize ≤ 2 ^ 40
  | .rolling top visible staging bottom base =>
    top ≤ 8 ∧ 2 ≤ visible ∧ visible ≤ 48 ∧ 1 ≤ staging ∧ staging ≤ 8 ∧ bottom ≤ 8 ∧
    base.toNat % d.blockSize = 0 ∧ base.toNat + (top + visible + staging + bottom) * d.blockSize ≤ 2 ^ 40

/-- R29, R30, R31: what the relational checks ask of a definition for window `w`. -/
def Definition.fits (d : Definition) (w : Fin 16) (s : State) : Prop :=
  (match d.geometry with
    | .slotted _ _ _ => True
    | .rolling top visible staging bottom _ => top + visible + staging + bottom ≤ 64) ∧
  (∀ c b, d.consumers.getLsbD (c : Fin 8).val = true → s.consumers[c] = some b → d.producers.getLsbD b.master.val = false) ∧
  (d.regions.map Prod.snd).Pairwise (fun a b => touches a b = false) ∧
  ∀ a ∈ d.regions.map Prod.snd, ∀ b ∈ s.windowRegions (some w) ++ s.ringRegions, touches a b = false

/-- R136: the fields of a ring definition lie in their own ranges. -/
def RingDef.wf (d : RingDef) : Prop :=
  d.entries ∈ ringSizes ∧ d.base.toNat % (d.entries * 16) = 0 ∧ d.base.toNat + d.entries * 16 ≤ 2 ^ 40 ∧
  d.produced.toNat % 8 = 0 ∧ d.consumed.toNat % 8 = 0 ∧ 1 ≤ d.threshold ∧ d.threshold ≤ 16 ∧ d.holdoff ≤ 65535

/-- R137, R169: the parameter bytes of SET NOTICE RING for a definition, its holdoff given in microseconds. -/
def ringBytes (d : RingDef) : List Byte :=
  leBytes 5 d.base.toNat ++ leBytes 2 d.entries ++ leBytes 5 d.produced.toNat ++ leBytes 5 d.consumed.toNat ++
  [BitVec.ofNat 8 d.threshold, 0] ++ leBytes 2 d.holdoff

/-- R137, R169: parameter bytes of SET NOTICE RING that carry a definition: a threshold of 4 may be given as 0, and a
holdoff of 100 µs as DEFAULT (mode 1, its holdoff bytes ignored). -/
def RingDef.givenBy (d : RingDef) (params : List Byte) : Prop :=
  ∃ (threshold mode : Byte) (holdoff : List Byte),
    params = (ringBytes d).take 17 ++ threshold :: mode :: holdoff ∧
    (threshold.toNat = d.threshold ∨ (threshold = 0 ∧ d.threshold = 4)) ∧
    ((mode = 0 ∧ holdoff = leBytes 2 d.holdoff) ∨ (mode = 1 ∧ holdoff.length = 2 ∧ d.holdoff = 100))

/-- R25, R167, R169: bytes 2 on of a DEFINE WINDOW frame that carry a definition: a stall limit of 1000 may be given as
0, and halt on fault = yes as every byte but 0. -/
def Definition.givenBy (d : Definition) (bytes : List Byte) : Prop :=
  ∃ (limit : Nat) (halt : Byte),
    bytes = (definitionBytes d).take 18 ++ leBytes 2 limit ++ halt :: (definitionBytes d).drop 21 ∧
    (limit = d.limit ∨ (limit = 0 ∧ d.limit = 1000)) ∧ (halt ≠ 0 ↔ d.haltOnFault = true)

/-- The first check of a list that fails is one that names index `i`. -/
def FirstBreach (checks : List (Prop × Nat)) (i : Nat) : Prop :=
  ∃ before p after, checks = before ++ (p, i) :: after ∧ ¬ p ∧ ∀ c ∈ before, c.1

/-- R28, R169: the checks on the parameters of a DEFINE WINDOW frame, each with the index it names, index 3 after index
4. Where the end of a region is computed from counts checked later, the counts are used as given (log 17). -/
def defineChecks (frame : List Byte) : List (Prop × Nat) :=
  let kind := field frame 2 1
  let size := 256 * 2 ^ field frame 8 1
  let a := field frame 23 1
  let b := field frame 24 1
  let c := field frame 25 1
  let e := field frame 26 1
  let apart (base units : Nat) : Prop := base % size = 0 ∧ base + units * size ≤ 2 ^ 40
  [(kind = 1 ∨ kind = 2, 2), (field frame 8 1 ≤ 8, 4),
   (apart (field frame 3 5) (if kind = 1 then a else a + b + e), 3),
   (field frame 11 2 < 256, 6), (1 ≤ field frame 13 1 ∧ field frame 13 1 ≤ 3, 7),
   (field frame 14 5 = 2 ^ 40 - 1 ∨ field frame 14 5 % 8 = 0, 8),
   (field frame 19 1 = 1 ∨ field frame 19 1 = 2, 9)] ++
  if kind = 1 then
    [(1 ≤ a ∧ a ≤ 64, 12), (2 ≤ b ∧ b ≤ 4, 13), (1 ≤ c ∧ c ≤ 3, 14)] ++
    (List.range b).map (fun s => (apart (field frame (26 + 5 * s) 5) a, 15 + s))
  else
    [(a ≤ 8, 12), (2 ≤ b ∧ b ≤ 48, 13), (1 ≤ c ∧ c ≤ 8, 14), (e ≤ 8, 15),
     (apart (field frame 27 5) (a + b + c + e), 16)]

/-- R30: the overlap checks on numbered regions: each apart from the others and from those before it. -/
def overlapChecks (others : List Region) (regions : List (Nat × Region)) : List (Prop × Nat) :=
  regions.zipIdx.map (fun x =>
    (∀ g ∈ others ++ (regions.take x.2).map Prod.snd, touches x.1.2 g = false, x.1.1))

/-- R29 to R31: the relational checks on a definition for window `w`, each with the index it names. -/
def relationalChecks (w : Fin 16) (d : Definition) (s : State) : List (Prop × Nat) :=
  [(match d.geometry with
      | .slotted _ _ _ => True
      | .rolling top visible staging bottom _ => top + visible + staging + bottom ≤ 64, 15),
   (∀ (c : Fin 8) b, d.consumers.getLsbD c.val = true → s.consumers[c] = some b →
      d.producers.getLsbD b.master.val = false, 5)] ++
  overlapChecks (s.windowRegions (some w) ++ s.ringRegions) d.regions

/-- R34: the checks of ENABLE WINDOW on a DEFINED window whose definition's own fields are in range, `front` being the
initial front slot. -/
def enableChecks (w : Fin 16) (d : Definition) (front : Nat) (s : State) : List (Prop × Nat) :=
  [(match d.geometry with
      | .slotted _ _ bases => front < bases.length
      | .rolling _ _ _ _ _ => True, 2),
   (∀ c : Fin 8, d.consumers.getLsbD c.val = true → s.consumers[c].isSome = true, 6),
   (d.trigger = .commitWord → d.word ≠ none, 8)] ++
  relationalChecks w d s

/-- R107: the checks 3 to 6 of BIND CONSUMER, for a consumer of no window that is LIVE, HALTED or DRAINING. -/
def bindChecks (c : Fin 8) (master source : Nat) (s : State) : List (Prop × Nat) :=
  [(master < 16, 2),
   (∀ (c' : Fin 8) b, c' ≠ c → s.consumers[c'] = some b → b.master.val ≠ master, 2),
   (∀ w d, s.windows[(w : Fin 16)].state ≠ .undefined → s.definition w = some d →
      d.producers.getLsbD master = true → d.consumers.getLsbD c.val = false, 2),
   (source = 1 ∨ source = 2, 3)]

/-- R137, R169: the checks 1 to 6 of SET NOTICE RING on the fields of its frame. -/
def ringChecks (frame : List Byte) : List (Prop × Nat) :=
  let entries := field frame 6 2
  [(entries ∈ ringSizes, 2),
   (field frame 1 5 % (entries * 16) = 0 ∧ field frame 1 5 + entries * 16 ≤ 2 ^ 40, 1),
   (field frame 8 5 % 8 = 0, 3), (field frame 13 5 % 8 = 0, 4), (field frame 18 1 ≤ 16, 5), (field frame 19 1 ≤ 1, 6)]

/-- The write commands of the link with their codes and the frame lengths of R168, DEFINE WINDOW apart. -/
def fixedLengthCommands (params : List Byte) : List (Instr × Byte × Nat) :=
  [(.setCommitWord params, 0x02, 7), (.undefineWindow params, 0x03, 2), (.enableWindow params, 0x04, 3),
   (.drainWindow params, 0x05, 2), (.resumeWindow params, 0x06, 2), (.setStallLimit params, 0x07, 4),
   (.publish params, 0x08, 4), (.abandon params, 0x09, 2), (.bindConsumer params, 0x0A, 6),
   (.unbindConsumer params, 0x0B, 2), (.setNoticeRing params, 0x0C, 22), (.setNoticeMask params, 0x0D, 3),
   (.flushNotices params, 0x0E, 1), (.softReset params, 0x0F, 1)]

/-- The read commands of the link with their codes and the numbers of their selector bytes (R152, R168). -/
def readFrames (params : List Byte) : List (Instr × Byte × Nat) :=
  [(.readWindowDefinition params, 0x81, 1), (.readWindowStatus params, 0x82, 1), (.readViewStatus params, 0x83, 2),
   (.readConsumer params, 0x84, 1), (.readRingStatus params, 0x85, 0), (.readPartStatus params, 0x86, 0),
   (.readResult params, 0x87, 0)]

/-- R151: the edges of SCK that clock one bit in and the next bit out. -/
def bitEdges (b : Bool) : List LinkEdge := [.sckRise b, .sckFall]

/-- R151: the edges of SCK that clock one byte in, most significant bit first. -/
def byteEdges (b : Byte) : List LinkEdge := (List.range 8).flatMap (fun i => bitEdges (b.getMsbD i))

/-- `n` steps one after another, as long as each answers a next state. -/
def steps : Nat → State → Host.Outcome State Fault Refusal
  | 0, s => .next s
  | n + 1, s =>
    match step s with
    | .next t => steps n t
    | .fault x => .fault x
    | .refused x => .refused x

/-- The commands that come over the link as write commands (R153), and hard reset: the only ones that may change the
configuration. -/
def configures : Instr → Bool
  | .defineWindow _ | .setCommitWord _ | .undefineWindow _ | .enableWindow _ | .drainWindow _ | .resumeWindow _
  | .setStallLimit _ | .publish _ | .abandon _ | .bindConsumer _ | .unbindConsumer _ | .setNoticeRing _
  | .setNoticeMask _ | .flushNotices _ | .softReset _ | .unknownCommandFrame _ _ | .hardReset _ => true
  | .requestArrival _ _ | .classification _ | .issueGrant | .pieceCompletion _ _ _ | .copierBurstCompletion _ _ _
  | .recordWriteCompletion _ _ | .writeBackCompletion _ _ | .responseSent _ | .frameLineEvent _
  | .slotWaitTimerExpiry _ | .visibilityWaitTimerExpiry _ | .idleExpiry _ _ | .holdoffExpiry | .commitTake _
  | .drainCompletion _ | .softResetClearing | .readWindowDefinition _ | .readWindowStatus _ | .readViewStatus _
  | .readConsumer _ | .readRingStatus _ | .readPartStatus _ | .readResult _ | .timebaseIncrement
  | .sselRiseAfterReset => false

end Sys2Proof.Machine
end

