-- ==== Sys2Proof/Certificates/Slice0/Obligations.lean ====
section
/-! DEFINITION. The statements for the provers. Each names the rules it formalises; a statement about a command gives the
whole next state wherever it can, so that its frame is part of it. -/

open Sys2Proof Sys2Proof.Machine

/-! ## The queue of commands -/

/-- A step carries out the command at the front of the queue, on the state with the queue's rest; with no command
waiting it takes the next edge on the link's pins, and with no edge either the part idles. All three are the model's
choice (log 1, log 8). -/
def Obligations.StepRunsFrontCommand : Prop :=
  (∀ (c : Instr) (rest : List Instr) (s : State), s.pending = c :: rest → step s = exec c { s with pending := rest }) ∧
  (∀ (e : LinkEdge) (rest : List LinkEdge) (s : State), s.pending = [] → s.edges = e :: rest →
    step s = takeEdge e { s with edges := rest }) ∧
  ∀ s : State, s.pending = [] → s.edges = [] → step s = .next s

/-- The model's choice (log 2): no command stops the part, and none changes the queue of commands or the edges still
to come on the link's pins. -/
def Obligations.EveryCommandCompletes : Prop :=
  ∀ (c : Instr) (s : State), ∃ t, exec c s = .next t ∧ t.pending = s.pending ∧ t.edges = s.edges

/-! ## The intake queues and response lists -/

/-- R4: an arriving request joins its master's intake queue while that holds fewer than 8, and is otherwise kept on
the bus, behind those kept there before (the model's choice: log 19); nothing else changes. -/
def Obligations.ArrivalJoinsQueueOrStaysOnBus : Prop :=
  ∀ (m : Fin 16) (r : Request) (s : State),
    (s.intake[m].length < 8 →
      exec (.requestArrival m r) s = .next { s with intake := s.intake.set m (s.intake[m] ++ [r]) }) ∧
    (8 ≤ s.intake[m].length →
      exec (.requestArrival m r) s = .next { s with onBus := s.onBus.set m (s.onBus[m] ++ [r]) })

/-- R4, R6, R11: a classified head leaves its intake queue, the oldest request kept on the bus takes the freed place
(at once: log 19), and no other master's queue changes. The head stays where it is, and nothing changes, while the
master has a WAITING request or 16 listed entries, and while the part is RESETTING for a request that touches a
window's range and crosses no 4 KiB boundary. -/
def Obligations.HeadOfLineRule : Prop :=
  (∀ (m : Fin 16) (r : Request) (s : State), s.mayTake m r →
    (crossesPage r = true ∨ s.link.part = .running ∨ touchedWindows r s = []) →
    ∃ t, exec (.classification m) s = .next t ∧
      t.intake = s.intake.set m (s.intake[m].tail ++ s.onBus[m].take 1) ∧
      t.onBus = s.onBus.set m (s.onBus[m].drop 1)) ∧
  (∀ (m : Fin 16) (s : State),
    (s.intake[m] = [] ∨ (∃ e ∈ s.responses[m], e.isWaiting = true) ∨ 16 ≤ s.responses[m].length) →
    exec (.classification m) s = .next s) ∧
  ∀ (m : Fin 16) (r : Request) (rest : List Request) (s : State), s.intake[m] = r :: rest → crossesPage r = false →
    s.link.part = .resetting → (∃ w g, s.range w = some g ∧ touches (requestRange r) g = true) →
    exec (.classification m) s = .next s

/-- R5, R21: the response of the oldest entry is sent when that entry is COMPLETE, and the entry is removed;
otherwise nothing is sent. -/
def Obligations.ResponsesLeaveInOrder : Prop :=
  (∀ (m : Fin 16) (e : Entry) (rest : List Entry) (a : Response) (s : State), s.responses[m] = e :: rest →
    e.stage = .complete a →
    exec (.responseSent m) s =
      .next { s with responses := s.responses.set m rest, sent := s.sent.set m (some a) }) ∧
  ∀ (m : Fin 16) (s : State), (∀ e a, s.responses[m].head? = some e → e.stage ≠ .complete a) →
    exec (.responseSent m) s = .next s

/-- R20, R132: the status and data of a request of one or two pieces, fixed when its last piece has completed, and
HELD while a commit created from it is unresolved. -/
def Obligations.AnswerStatusAndData : Prop :=
  (∀ (e : Entry), e.unresolved ≠ 0 → e.settle.stage = .held) ∧
  (∀ (e : Entry) (p : Piece) (data : List Dword), e.request.kind = .read → e.unresolved = 0 → e.created = 0 →
    e.pieces = [p] →
    (p.stage = .done data → e.settle.stage = .complete ⟨.done, data⟩) ∧
    (p.stage = .faulted → e.settle.stage = .complete ⟨.memfault, List.replicate p.beats 0⟩)) ∧
  (∀ (e : Entry) (p q : Piece) (d₁ d₂ : List Dword), e.request.kind = .read → e.unresolved = 0 → e.created = 0 →
    e.pieces = [p, q] →
    (p.stage = .done d₁ → q.stage = .done d₂ → e.settle.stage = .complete ⟨.done, d₁ ++ d₂⟩) ∧
    (p.stage = .done d₁ → q.stage = .faulted →
      e.settle.stage = .complete ⟨.memfault, d₁ ++ List.replicate q.beats 0⟩) ∧
    (p.stage = .faulted → q.stage = .done d₂ →
      e.settle.stage = .complete ⟨.memfault, List.replicate p.beats 0 ++ d₂⟩) ∧
    (p.stage = .faulted → q.stage = .faulted →
      e.settle.stage = .complete ⟨.memfault, List.replicate p.beats 0 ++ List.replicate q.beats 0⟩)) ∧
  ∀ (e : Entry), e.request.kind = .write → e.unresolved = 0 →
    ((∃ p ∈ e.pieces, p.stage = .faulted) → e.settle.stage = .complete ⟨.memfault, []⟩) ∧
    ((∀ p ∈ e.pieces, p.stage ≠ .faulted) → 0 < e.created → e.anyTaken = false →
      e.settle.stage = .complete ⟨.denied, []⟩) ∧
    ((∀ p ∈ e.pieces, p.stage ≠ .faulted) → (e.created = 0 ∨ e.anyTaken = true) →
      e.settle.stage = .complete ⟨.done, []⟩)

/-! ## Classification -/

/-- R7: a request whose first and last bytes lie in different aligned 4 KiB regions, one whose last byte would lie
beyond the address space among them, is answered DENIED in every part state; no window, place or watched word is
touched. -/
def Obligations.PageCrossingDenied : Prop :=
  (∀ (m : Fin 16) (r : Request) (s : State), s.mayTake m r →
    r.addr.toNat / 4096 ≠ (r.addr.toNat + 8 * r.beats - 1) / 4096 →
    exec (.classification m) s = .next (s.refused m r none .badRequest)) ∧
  ∀ r : Request, 2 ^ 40 ≤ r.addr.toNat + 8 * r.beats - 1 →
    r.addr.toNat / 4096 ≠ (r.addr.toNat + 8 * r.beats - 1) / 4096

/-- R8, R10, R13, R53, R93: a request that touches a window's range and lies inside none is answered DENIED STRADDLE,
the lowest-numbered window touched being recorded, and a WRITE is not examined for watched words. A window request is
refused NOT_LIVE in DEFINED, HALTED for a WRITE in HALTED, CLOSING in DRAINING, and NOT_PRODUCER for a WRITE to a
LIVE window by a master that is no producer. -/
def Obligations.WindowRefusals : Prop :=
  (∀ (m : Fin 16) (r : Request) (w : Fin 16) (g : Region) (s : State), s.mayTake m r → crossesPage r = false →
    s.link.part = .running → s.range w = some g → touches (requestRange r) g = true →
    (∀ w' < w, ∀ g', s.range w' = some g' → touches (requestRange r) g' = false) →
    (∀ w' g', s.range w' = some g' → liesInside (requestRange r) g' = false) →
    exec (.classification m) s = .next (s.refused m r (some w) .straddle)) ∧
  ∀ (m : Fin 16) (r : Request) (w : Fin 16) (d : Definition) (s : State), s.windowHead m r w d →
    (s.windows[w].state = .defined → exec (.classification m) s = .next (s.refused m r (some w) .notLive)) ∧
    (s.windows[w].state = .halted → r.kind = .write →
      exec (.classification m) s = .next (s.refused m r (some w) .halted)) ∧
    (s.windows[w].state = .draining → exec (.classification m) s = .next (s.refused m r (some w) .closing)) ∧
    (s.windows[w].state = .live → r.kind = .write → s.role d m ≠ .producer →
      exec (.classification m) s = .next (s.refused m r (some w) .notProducer))

/-- R14: the pieces of a request inside a window's range: one or two, in address order, that together hold its beats
and its data, each inside one block or line. -/
def Obligations.PiecesCoverRequest : Prop :=
  ∀ (d : Definition) (r : Request), r.wf = true → d.base.toNat % d.blockSize = 0 →
    d.base.toNat + d.rangeLength ≤ 2 ^ 40 → liesInside (requestRange r) d.range = true →
    ((cut d r).length = 1 ∨ (cut d r).length = 2) ∧
    ((cut d r).map Piece.beats).sum = r.beats ∧ (cut d r).flatMap Piece.data = r.data ∧
    (∀ p ∈ cut d r, 1 ≤ p.beats ∧ d.base.toNat + p.unit * d.blockSize ≤ p.addr.toNat ∧
      p.addr.toNat + 8 * p.beats ≤ d.base.toNat + (p.unit + 1) * d.blockSize) ∧
    (∀ p, (cut d r)[0]? = some p → p.addr = r.addr) ∧
    ∀ p q, (cut d r)[0]? = some p → (cut d r)[1]? = some q →
      q.addr.toNat = p.addr.toNat + 8 * p.beats ∧ q.unit = p.unit + 1

/-- R12, with R5, R16, R18 for its life: a request that is neither refused, nor a watched write, nor a window request
enters WAITING with a single piece at its own address and its master contends at once; the issue (into the place the
model numbers lowest: log 5) and the completion of a piece of no window tell no block but the system port and the
memory port. The data of a READ are fitted to its beats (the model's choice: log 9). -/
def Obligations.PassthroughRunsAtItsOwnAddress : Prop :=
  (∀ (m : Fin 16) (r : Request) (s : State), s.mayTake m r → crossesPage r = false → touchedWindows r s = [] →
    isWatchedWrite r s = false →
    exec (.classification m) s = .next (s.passed m r 0 0) ∧ contends (s.passed m r 0 0) (.master m) = true) ∧
  (∀ (m : Fin 16) (e : Entry) (k : Nat) (p : Piece) (s : State), (∃ i : Fin 32, s.places[i] = none) →
    contends s (.master m) = true →
    (∀ c, contends s c = true → turnsTo s.lastGranted (.master m) ≤ turnsTo s.lastGranted c) →
    s.current m = some e → e.window = none → e.nextPiece = some (k, p) →
    ∃ i : Fin 32, s.places[i] = none ∧ exec .issueGrant s = .next (State.updEntry
      { s with
        lastGranted := .master m
        places := s.places.set i
          (some { owner := .piece m e.id k, kind := e.request.kind, addr := p.phys, beats := p.beats, data := p.data }) }
      m e.id (Entry.issue k p))) ∧
  ∀ (tag : Fin 32) (status : MemStatus) (data : List Dword) (q : MemRequest) (m : Fin 16) (id k : Nat) (e : Entry)
    (p : Piece) (s : State), s.places[tag] = some q → q.owner = .piece m id k →
    s.responses[m].find? (fun e => decide (e.id = id)) = some e → e.pieces[k]? = some p → e.window = none →
    s.notClearing →
    exec (.pieceCompletion tag status data) s = .next
      (State.updEntry { s with places := s.places.set tag none } m id (fun x =>
        let y := { x with pieces := x.pieces.set k (p.complete e.request.kind status data) }
        if (e.pieces.set k (p.complete e.request.kind status data)).all
            (fun p => decide (p.stage ≠ .unissued) && decide (p.stage ≠ .issued))
        then y.settle else y))

/-! ## Requests of a slotted window -/

/-- R50, R53, R72: a READ of a slotted window by a bystander is mapped to the front, and one by a producer piece by
piece to the FILLING slot, or to the backfill source while the block is uncopied, or to the front when no slot is
FILLING. No condition is carried, and each piece is counted in its slot's waiting count. -/
def Obligations.SlottedReadMapped : Prop :=
  ∀ (m : Fin 16) (r : Request) (w : Fin 16) (d : Definition) (u : SlotUnit) (s : State), s.windowHead m r w d →
    (s.windows[w].state = .live ∨ s.windows[w].state = .halted) → r.kind = .read → s.slots[w] = some u →
    (s.role d m = .bystander ∨ (s.role d m = .producer ∧ u.filling = none) →
      exec (.classification m) s = .next
        ((s.admitted m r w .mapped ((cut d r).map (mapToSlot d u.front)) false).onSlots w (fun v => v.onSlot u.front
          (fun x => { x with waiting := x.waiting + (cut d r).length })))) ∧
    ∀ i k f, s.role d m = .producer → u.filling = some i → s.work w i = some k → k.source.getD u.front = f →
      exec (.classification m) s = .next
        ((s.admitted m r w .mapped ((cut d r).map (fun p =>
            mapToSlot d (if k.map[p.unit]? = some .needsCopy ∨ k.map[p.unit]? = some .copying then f else i) p)) false).onSlots
          w (fun u => (u.onSlot i (fun x => { x with waiting := x.waiting + (cut d r).countP (fun p =>
              decide (k.map[p.unit]? ≠ some .needsCopy) && decide (k.map[p.unit]? ≠ some .copying)) })).onSlot f
            (fun x => { x with waiting := x.waiting + (cut d r).countP (fun p =>
              decide (k.map[p.unit]? = some .needsCopy) || decide (k.map[p.unit]? = some .copying)) })))

/-- R52, R115, R116, R119: the reads of a LINE consumer of a slotted window: one whose view is PINNED reaches the
pinned slot, one whose view is TORN reaches the front with no pin; each restarts the view's idle timer when the idle
limit is not 0. -/
def Obligations.ConsumerReadFollowsItsPin : Prop :=
  ∀ (m : Fin 16) (r : Request) (w : Fin 16) (d : Definition) (u : SlotUnit) (c : Fin 8) (b : Binding) (v : View)
    (s : State), s.windowHead m r w d → (s.windows[w].state = .live ∨ s.windows[w].state = .halted) → r.kind = .read →
    s.slots[w] = some u → s.role d m = .consumer c → s.consumers[c] = some b → b.source = .line → s.view w c = some v →
    ∀ i, ((∃ g, v.state = .pinnedSlot i g) ∨ (v.state = .torn ∧ u.front = i)) →
      exec (.classification m) s = .next
        (((s.admitted m r w .mapped ((cut d r).map (mapToSlot d i)) false).onSlots w (fun u => u.onSlot i
          (fun x => { x with waiting := x.waiting + (cut d r).length }))).updView w c (fun v =>
            { v with timer := if b.idle = 0 then v.timer else some s.timebase }))

/-- R46, R47, R52, R55, R61, R111, R113 to R116, R119: the first read of an UNPINNED view of a slotted window pins the
front with its generation: for a FIRST_BLOCK consumer whose read begins in block 0 it is a frame start and is counted,
otherwise a late pin; only a FIRST_BLOCK consumer's progress mark is set, to the read's last block. With the front
pinned, a FIRST_BLOCK consumer's read that begins in block 0 starts a frame when the progress mark is above 0, and
does not when it is 0; any read raises the mark to its last block. With an older slot pinned, such a frame start moves
the pin to the front, and the older slot retires where that was its last pin and no source hold is on it (R61):
RETIRING while a count of it is above 0, else FREE, and then allocated where the window is LIVE with no FILLING,
SEALED or other FREE slot (R46, R47); any other read reaches the pinned slot. Through a TORN view a read that begins
in block 0 starts a frame, and any other reaches the front with no pin. -/
def Obligations.ConsumerReadPinsFront : Prop :=
  (∀ (m : Fin 16) (r : Request) (w : Fin 16) (d : Definition) (u : SlotUnit) (c : Fin 8) (b : Binding) (v : View)
    (x : Slot) (g : BitVec 32) (s : State), s.windowHead m r w d →
    (s.windows[w].state = .live ∨ s.windows[w].state = .halted) → r.kind = .read → s.slots[w] = some u →
    s.role d m = .consumer c → s.consumers[c] = some b → s.view w c = some v → v.state = .unpinned → v.mark = none →
    u.slots[u.front] = some x → x.state = .published g →
    exec (.classification m) s = .next
      (((s.admitted m r w .mapped ((cut d r).map (mapToSlot d u.front)) false).onSlots w (fun v => v.onSlot u.front
        (fun x => { x with pins := x.pins + 1, waiting := x.waiting + (cut d r).length }))).updView w c (fun v =>
          { state := .pinnedSlot u.front g
            frames := if b.source = .firstBlock ∧ firstUnit d r = 0 then v.frames + 1 else v.frames
            mark := if b.source = .firstBlock then some (lastUnit d r) else none
            timer := if b.idle = 0 then v.timer else some s.timebase }))) ∧
  (∀ (m : Fin 16) (r : Request) (w : Fin 16) (d : Definition) (u : SlotUnit) (c : Fin 8) (b : Binding) (v : View)
    (g : BitVec 32) (k : Nat) (s : State), s.windowHead m r w d →
    (s.windows[w].state = .live ∨ s.windows[w].state = .halted) → r.kind = .read → s.slots[w] = some u →
    s.role d m = .consumer c → s.consumers[c] = some b → b.source = .firstBlock → s.view w c = some v →
    v.state = .pinnedSlot u.front g → s.generation w u.front = g → v.mark = some k →
    exec (.classification m) s = .next
      (((s.admitted m r w .mapped ((cut d r).map (mapToSlot d u.front)) false).onSlots w (fun v => v.onSlot u.front
        (fun x => { x with waiting := x.waiting + (cut d r).length }))).updView w c (fun v =>
          { v with
            frames := if firstUnit d r = 0 ∧ 0 < k then v.frames + 1 else v.frames
            mark := some (if firstUnit d r = 0 ∧ 0 < k then lastUnit d r else max k (lastUnit d r))
            timer := if b.idle = 0 then v.timer else some s.timebase }))) ∧
  ∀ (m : Fin 16) (r : Request) (w : Fin 16) (d : Definition) (u : SlotUnit) (c : Fin 8) (b : Binding) (v : View)
    (s : State), s.windowHead m r w d → (s.windows[w].state = .live ∨ s.windows[w].state = .halted) → r.kind = .read →
    s.slots[w] = some u → s.role d m = .consumer c → s.consumers[c] = some b → b.source = .firstBlock →
    s.view w c = some v →
    let after : View :=
      v.afterRead b (.pinnedSlot u.front (s.generation w u.front)) (firstUnit d r) (lastUnit d r) s.timebase
    let reached (i : Fin 4) (f : SlotUnit → SlotUnit) : State :=
      ((s.admitted m r w .mapped ((cut d r).map (mapToSlot d i)) false).onSlots w (fun u =>
        (f u).onSlot i (fun x => { x with waiting := x.waiting + (cut d r).length }))).updView w c (fun _ => after)
    let pinned (x : Slot) : Slot := { x with pins := x.pins + 1 }
    (∀ j g y, v.state = .pinnedSlot j g → j ≠ u.front → u.slots[j] = some y →
      if firstUnit d r = 0 ∧ v.mark.any (fun k => decide (0 < k)) = true then
        (s.freesNone w u y → exec (.classification m) s = .next (reached u.front (fun x =>
          (x.onSlot j Slot.released).onSlot u.front pinned))) ∧
        (s.frees w u j y → s.oneWaiting → ∀ x, u.slots[u.front] = some x →
          ∃ t u' x', exec (.classification m) s = .next t ∧ s.allocated t w j u d ∧ t.view w c = some after ∧
            t.slots[w] = some u' ∧ u'.slots[u.front] = some x' ∧ x'.pins = x.pins + 1)
      else exec (.classification m) s = .next (reached j id)) ∧
    (v.state = .torn →
      if firstUnit d r = 0 then
        exec (.classification m) s = .next (reached u.front (fun x => x.onSlot u.front pinned))
      else exec (.classification m) s = .next (reached u.front id))

/-- R51, R75, R125: a producer write of a LIVE slotted window with the fence down and a FILLING slot is mapped to
that slot and counted. When no block of it waits for a copy, it carries no condition; when its block is NEEDS_COPY,
it carries a copy wait and, while the copier runs another copy, its block joins the tail of the urgent list unless
the list holds it. It is a closing write as R125 says. -/
def Obligations.ProducerWriteMapped : Prop :=
  (∀ (m : Fin 16) (r : Request) (w : Fin 16) (d : Definition) (u : SlotUnit) (i : Fin 4) (k : Work) (s : State),
    s.windowHead m r w d → s.windows[w].state = .live → r.kind = .write → s.role d m = .producer →
    s.commits[w].fence = false → s.slots[w] = some u → u.filling = some i → s.work w i = some k →
    (∀ p ∈ cut d r, k.map[p.unit]? = some .notWritten ∨ k.map[p.unit]? = some .copied ∨ k.map[p.unit]? = some .written) →
    (∀ e ∈ s.responses[m], e.id ≠ s.nextId) →
    exec (.classification m) s = .next
      { ((s.admitted m r w .mapped ((cut d r).map (mapToSlot d i))
            (decide (d.trigger = .closingWrite) && includesByte r (d.base.toNat + d.rangeLength - 1))).onSlots w
          (fun u => u.onSlot i (fun x => { x with waiting := x.waiting + (cut d r).length }))) with
        stallTimers := s.stallTimers.set m none }) ∧
  ∀ (m : Fin 16) (r : Request) (w : Fin 16) (d : Definition) (u : SlotUnit) (i : Fin 4) (k : Work) (p : Piece)
    (s : State),
    s.windowHead m r w d → s.windows[w].state = .live → r.kind = .write → s.role d m = .producer →
    s.commits[w].fence = false → s.slots[w] = some u → u.filling = some i → s.work w i = some k →
    cut d r = [p] → k.map[p.unit]? = some .needsCopy → s.copier.copy.isSome = true →
    (∀ e ∈ s.responses[m], e.id ≠ s.nextId) →
    exec (.classification m) s = .next
      { ((s.admitted m r w .mapped [{ mapToSlot d i p with cond := .copyWait }]
            (decide (d.trigger = .closingWrite) && includesByte r (d.base.toNat + d.rangeLength - 1))).onSlots w
          (fun u => u.onSlot i (fun x => { x with waiting := x.waiting + 1 }))) with
        stallTimers := s.stallTimers.set m none
        copier := if ⟨w, i, p.unit⟩ ∈ s.copier.urgent then s.copier
          else { s.copier with urgent := s.copier.urgent ++ [⟨w, i, p.unit⟩] } }

/-- R51, R65, R94, R129: a producer write of a LIVE window waits unmapped at a raised fence, or, in a slotted window
with no FILLING slot, in a slot wait whose stall timer starts at once unless the window has a SEALED slot. -/
def Obligations.ProducerWriteWaitsUnmapped : Prop :=
  ∀ (m : Fin 16) (r : Request) (w : Fin 16) (d : Definition) (s : State), s.windowHead m r w d →
    s.windows[w].state = .live → r.kind = .write → s.role d m = .producer → (∀ e ∈ s.responses[m], e.id ≠ s.nextId) →
    (s.commits[w].fence = true → exec (.classification m) s = .next (s.admitted m r w .fence [] false)) ∧
    ∀ u, s.commits[w].fence = false → s.slots[w] = some u → u.filling = none →
      (u.sealed = none → exec (.classification m) s = .next
        { s.admitted m r w (.slot true) [] false with
          stallTimers := s.stallTimers.set m (some ⟨s.timebase, d.limit⟩) }) ∧
      (u.sealed ≠ none → exec (.classification m) s = .next (s.admitted m r w (.slot false) [] false))

/-! ## Requests of a rolling window -/

/-- R91 to R93, R95, R96, R98, R112 to R116, R119: a READ of a rolling window by a bystander is mapped with the
current origin and counted at its ring positions; one by a producer is mapped with the next origin and counted
nowhere. A consumer's READ is mapped with the origin its view is pinned to, whatever its lag, or with the current
origin by a TORN view, with no pin; an UNPINNED view is first pinned at the current origin with lag 0, and so is one
of a FIRST_BLOCK consumer where the read starts a frame. A view that saw the target leaves seeing by that (R96): the
seeing count falls by one and, where the target is then clear, the writes waiting on it are released (R98). The READ
is counted as a bystander's is. -/
def Obligations.RollingReadMapped : Prop :=
  ∀ (m : Fin 16) (r : Request) (w : Fin 16) (d : Definition) (u : RollState) (s : State), s.windowHead m r w d →
    (s.windows[w].state = .live ∨ s.windows[w].state = .halted) → r.kind = .read → s.slots[w] = none →
    s.rolls[w] = some u →
    let counted (s : State) (seeing x : Nat) : State :=
      { s.admitted m r w .mapped ((cut d r).map (mapToLine d x true)) false with
        rolls := s.rolls.set w (some { u with
          seeing := seeing
          reads := (cut d r).foldl (fun reads p =>
            match d.ringPosition x p.unit with
            | none => reads
            | some q => reads.modify q (· + 1)) u.reads }) }
    (s.role d m = .bystander → exec (.classification m) s = .next (counted s u.seeing u.origin)) ∧
    (s.role d m = .producer → exec (.classification m) s = .next
      (s.admitted m r w .mapped ((cut d r).map (mapToLine d ((u.origin + 1) % d.ring) false)) false)) ∧
    ∀ (c : Fin 8) (b : Binding) (v : View), s.role d m = .consumer c → s.consumers[c] = some b → s.view w c = some v →
      let after : View := v.afterRead b (.pinnedOrigin u.origin 0) (firstUnit d r) (lastUnit d r) s.timebase
      (∀ x lag, v.state = .pinnedOrigin x lag →
        (after.frames = v.frames →
          exec (.classification m) s = .next ((counted s u.seeing x).updView w c (fun _ => after))) ∧
        (after.frames ≠ v.frames → lag < d.staging →
          exec (.classification m) s = .next ((counted s u.seeing u.origin).updView w c (fun _ => after))) ∧
        (after.frames ≠ v.frames → d.staging ≤ lag → s.oneWaiting →
          exec (.classification m) s = .next
            ((counted (s.leftSeeing w d u) (u.seeing - 1) u.origin).updView w c (fun _ => after)))) ∧
      (v.state = .unpinned ∨ v.state = .torn →
        exec (.classification m) s = .next ((counted s u.seeing u.origin).updView w c (fun _ => after)))

/-- R94, R97: a producer write of a LIVE rolling window with the fence down is mapped with the next origin; a piece
on the target line waits, timed, unless the seeing count and the target position's read count are both 0. -/
def Obligations.RollingWriteMapped : Prop :=
  ∀ (m : Fin 16) (r : Request) (w : Fin 16) (d : Definition) (u : RollState) (s : State), s.windowHead m r w d →
    s.windows[w].state = .live → r.kind = .write → s.role d m = .producer → s.commits[w].fence = false →
    s.slots[w] = none → s.rolls[w] = some u → (∀ e ∈ s.responses[m], e.id ≠ s.nextId) →
    let visible (p : Piece) : Bool :=
      decide (d.ringPosition ((u.origin + 1) % d.ring) p.unit = some (d.targetPosition u.origin)) &&
      (decide (u.seeing ≠ 0) || decide (u.readCount (d.targetPosition u.origin) ≠ 0))
    exec (.classification m) s = .next
      { s.admitted m r w .mapped ((cut d r).map (fun p =>
          { mapToLine d ((u.origin + 1) % d.ring) false p with cond := if visible p then .visibility else .clear }))
          (closesRolling d r) with
        stallTimers := if (cut d r).any visible then s.stallTimers.set m (some ⟨s.timebase, d.limit⟩)
          else s.stallTimers }

/-- R89, R90: the physical lines of a rolling window: the bands do not move, distinct virtual lines reach distinct
physical lines inside the line region, no visible line at origin `x` lies within the S ring lines that follow the
last of them, and the producer's last visible line is the target. -/
def Obligations.RollingLinesDistinct : Prop :=
  ∀ (d : Definition) (top visible staging bottom : Nat) (base : Addr),
    d.geometry = .rolling top visible staging bottom base → 1 ≤ staging → 2 ≤ visible →
    (∀ x v, v < top → d.physicalLine x v = v) ∧
    (∀ x v, top + visible ≤ v → d.physicalLine x v = v + staging) ∧
    (∀ x v v', v < d.units → v' < d.units → d.physicalLine x v = d.physicalLine x v' → v = v') ∧
    (∀ x v, v < d.units → d.physicalLine x v < top + visible + staging + bottom) ∧
    (∀ x v L q, L < staging → d.ringPosition x v = some q → q ≠ (x + L + visible) % d.ring) ∧
    ∀ x, d.ringPosition (x + 1) (top + visible - 1) = some (d.targetPosition x)

/-! ## Watched words -/

/-- R9, R145: a store to the consumed-index word of an ACTIVE or FAULTED ring, no commit word being in it, enters
WAITING as passthrough, and a value in the cyclic range from the consumed to the write index is taken, ATTN
following. -/
def Obligations.ConsumedIndexStoreTaken : Prop :=
  ∀ (m : Fin 16) (r : Request) (d : RingDef) (b : Beat) (s : State), s.mayTake m r → crossesPage r = false →
    touchedWindows r s = [] → r.kind = .write → s.notice.ring ≠ .unset → s.notice.definition = some d →
    includesWord r d.consumed = true → beatHolding r d.consumed = some b →
    (∀ w d' a, s.windows[(w : Fin 16)].state ≠ .undefined → s.definition w = some d' → d'.word = some a →
      includesWord r a = false) →
    b.lanes = 0xFF → b.data.toNat < d.entries →
    (b.data.toNat + d.entries - s.notice.consumed) % d.entries ≤
      (s.notice.write + d.entries - s.notice.consumed) % d.entries →
    exec (.classification m) s = .next { s.passed m r 0 0 with
      notice := { s.notice with
        consumed := b.data.toNat
        attn := decide (s.notice.ring = .faulted) || decide (s.notice.writtenBack ≠ b.data.toNat) } }

/-- R9, R124, R127, R128: what a producer's or another master's store to the commit word of one window is, no other
watched word being in it: an ordinary store, a BAD_COMMIT, or a commit, which is discarded in a window that is not LIVE
or by a full queue, joins the queue behind the commit in progress, or begins; with a drain count of 0 it is then taken
in the same take. -/
def Obligations.CommitWordStoreOutcomes : Prop :=
  ∀ (m : Fin 16) (r : Request) (w : Fin 16) (d : Definition) (a : Addr) (b : Beat) (s : State), s.mayTake m r →
    crossesPage r = false → touchedWindows r s = [] → r.kind = .write → s.link.part = .running →
    s.windows[w].state ≠ .undefined → s.definition w = some d → d.word = some a → includesWord r a = true →
    beatHolding r a = some b →
    (∀ w' d' a', w' ≠ w → s.windows[(w' : Fin 16)].state ≠ .undefined → s.definition w' = some d' →
      d'.word = some a' → includesWord r a' = false) →
    (∀ n, s.notice.definition = some n → s.notice.ring = .unset ∨ includesWord r n.consumed = false) →
    (∀ e ∈ s.responses[m], e.id ≠ s.nextId) →
    let isProducer := d.producers.getLsbD m.val = true
    let action := b.data.toNat / 2 ^ 16 % 256
    let good := d.trigger = .commitWord ∧ b.lanes = 0xFF ∧ (action = 1 ∨ (action = 2 ∧ d.isSlotted = true))
    let commit : Commit :=
      { action := if action = 1 then .publish else .abandon, tag := BitVec.ofNat 16 b.data.toNat, master := some m,
        trigger := some (m, s.nextId) }
    let discarded (reason : Reason) : State :=
      { s.passed m r 1 0 with notice := s.notice.take (.commitDiscarded w reason (some m) 0) s.timebase }
    (¬ isProducer → exec (.classification m) s = .next (s.passed m r 0 0)) ∧
    (isProducer → ¬ good → exec (.classification m) s = .next
      { s.passed m r 0 0 with notice := s.notice.take (.badCommit w m) s.timebase }) ∧
    (isProducer → good → s.windows[w].state = .defined →
      exec (.classification m) s = .next (discarded .notLive)) ∧
    (isProducer → good → s.windows[w].state = .halted → exec (.classification m) s = .next (discarded .halted)) ∧
    (isProducer → good → s.windows[w].state = .draining → exec (.classification m) s = .next (discarded .closing)) ∧
    (isProducer → good → s.windows[w].state = .live → 4 ≤ s.commits[w].queue.length →
      exec (.classification m) s = .next (discarded .queueFull)) ∧
    (isProducer → good → s.windows[w].state = .live → s.commits[w].queue.length < 4 →
      (s.commits[w].current.isSome = true ∨ s.commits[w].queue ≠ []) →
      exec (.classification m) s = .next
        { s.passed m r 1 1 with
          commits := s.commits.set w { s.commits[w] with queue := s.commits[w].queue ++ [commit] } }) ∧
    (isProducer → good → s.windows[w].state = .live → s.commits[w].queue = [] → s.commits[w].current = none →
      exec (.classification m) s = (s.passed m r 1 1).begins w [] commit)

/-! ## Issue -/

/-- R17: with no free place or no contender nothing is granted; otherwise the place goes to the first contender in
the order that follows the one last granted, which becomes the last granted, and no other place changes. Which place
that is is the model's choice (log 5). -/
def Obligations.GrantFollowsRotation : Prop :=
  (∀ s : State, ((∀ i : Fin 32, s.places[i].isSome = true) ∨ ∀ c, contends s c = false) →
    exec .issueGrant s = .next s) ∧
  ∀ (c : Contender) (i : Fin 32) (s : State), s.nextGrant c i →
    (∀ y, s.copier.copy = some y → (s.definition y.window).isSome = true) →
    ∃ t, exec .issueGrant s = .next t ∧ t.lastGranted = c ∧ t.places[i].isSome = true ∧
      ∀ j : Fin 32, j ≠ i → t.places[j] = s.places[j]

/-- R16, R36, R49, R54: a window piece is issued: the window's in-flight count rises, its waiting count falls with
the last piece, the piece moves from its slot's waiting to its in-flight count, and a write piece marks its block
WRITTEN. The place is the model's choice (log 5). -/
def Obligations.WindowPieceIssued : Prop :=
  ∀ (m : Fin 16) (i : Fin 32) (e : Entry) (k : Nat) (p : Piece) (w : Fin 16) (s : State), s.nextGrant (.master m) i →
    s.link.part = .running → s.current m = some e → e.window = some w → e.nextPiece = some (k, p) →
    exec .issueGrant s = .next (State.updEntry
      { s with
        lastGranted := .master m
        places := s.places.set i
          (some { owner := .piece m e.id k, kind := e.request.kind, addr := p.phys, beats := p.beats, data := p.data })
        windows := s.windows.set w { s.windows[w] with
          inFlight := s.windows[w].inFlight + 1
          waiting := if (e.issue k p).stage = .inFlight then s.windows[w].waiting - 1 else s.windows[w].waiting }
        slots := match p.target with
          | .slot j => s.slots.set w (s.slots[w].map (fun u => u.onSlot j (Slot.issued e.request.kind p.unit)))
          | _ => s.slots }
      m e.id (Entry.issue k p))

/-- R137, R141 to R144: what the notice writer issues when it is granted: the initial write-back owed, else a
write-back that is due, else the record at the head of the pending queue, with the lost count and sequence number of
the issue. The place is the model's choice (log 5). -/
def Obligations.NoticeWriteIssued : Prop :=
  (∀ (s : State), contends s .noticeWriter = true ↔
    s.link.part = .running ∧ s.notice.ring = .active ∧ s.notice.inFlight = none ∧
    ∃ d, s.notice.definition = some d ∧ (s.notice.owed = true ∨ s.notice.announces d ∨
      ((s.notice.write + d.entries - s.notice.consumed) % d.entries ≠ d.entries - 1 ∧ s.notice.pending ≠ []))) ∧
  ∀ (i : Fin 32) (d : RingDef) (s : State), s.nextGrant .noticeWriter i → s.notice.definition = some d →
    let written (v : Nat) : State :=
      { s with
        lastGranted := .noticeWriter
        places := s.places.set i (some
          { owner := .noticeWrite, kind := .write, addr := d.produced, beats := 1, data := [beatOf (producedBytes v)] })
        notice := { s.notice with
          owed := false, flush := false, holdoff := .stopped, inFlight := some ⟨.writeBack v, false⟩ } }
    (s.notice.owed = true → exec .issueGrant s = .next (written 0)) ∧
    (s.notice.owed = false → s.notice.announces d → exec .issueGrant s = .next (written s.notice.write)) ∧
    ∀ n rest, s.notice.owed = false → ¬ s.notice.announces d → s.notice.pending = n :: rest →
      exec .issueGrant s = .next { s with
        lastGranted := .noticeWriter
        places := s.places.set i (some
          { owner := .noticeWrite, kind := .write, addr := d.base + BitVec.ofNat 40 (16 * s.notice.write), beats := 2,
            data := beatsOf 2 (recordBytes n s.notice.lost s.notice.sequence) })
        notice := { s.notice with pending := rest, lost := 0, inFlight := some ⟨.record, false⟩ } }

/-- R17, R77: what the copier issues when it is granted: the write burst of its lowest-numbered full chunk, or else the
read burst of its next unread chunk into an empty buffer; either counts in the destination slot. Which place it takes
is the model's choice (log 5), and so is which empty buffer, the lowest-numbered (log 23). -/
def Obligations.CopierBurstIssued : Prop :=
  ∀ (i : Fin 32) (y : Copy) (d : Definition) (s : State), s.nextGrant .copier i → s.copier.copy = some y →
    s.definition y.window = some d →
    (∀ (j : Fin 4) chunk data, s.copier.buffers[j] = some ⟨chunk, .full data⟩ →
      (∀ (j' : Fin 4) chunk' data', s.copier.buffers[j'] = some ⟨chunk', .full data'⟩ → j' = j ∨ chunk < chunk') →
      exec .issueGrant s = .next (State.updSlot
        { s with
          lastGranted := .copier
          places := s.places.set i (some
            { owner := .copierBurst j, kind := .write,
              addr := d.slotBase y.dest + BitVec.ofNat 40 (y.block * d.blockSize + chunk * 128), beats := 16,
              data := data.map (fun x => ⟨x, 0xFF⟩) })
          copier := { s.copier with buffers := s.copier.buffers.set j (some ⟨chunk, .writing data⟩) } }
        y.window y.dest (fun x => { x with inFlight := x.inFlight + 1 }))) ∧
    ∀ (j : Fin 4), (∀ (j' : Fin 4) chunk' data', s.copier.buffers[j'] ≠ some ⟨chunk', .full data'⟩) →
      s.copier.buffers[j] = none → (∀ j' < j, s.copier.buffers[j'] ≠ none) →
      exec .issueGrant s = .next (State.updSlot
        { s with
          lastGranted := .copier
          places := s.places.set i (some
            { owner := .copierBurst j, kind := .read,
              addr := d.slotBase y.source + BitVec.ofNat 40 (y.block * d.blockSize + y.next * 128), beats := 16,
              data := [] })
          copier := { s.copier with
            buffers := s.copier.buffers.set j (some ⟨y.next, .reading⟩)
            copy := some { y with next := y.next + 1 } } }
        y.window y.dest (fun x => { x with inFlight := x.inFlight + 1 }))

/-! ## Completions -/

/-- R18, R36, R46, R47, R49, R62, R95, R125, R127, R130: a piece of a window completes DONE in a running part: its
place is freed, the window's in-flight count and its target's count fall, and with the last piece the request is
settled and leaves the drain set it is in. A RETIRING slot whose counts are both 0 becomes FREE, and in a LIVE window
with no FILLING and no SEALED slot it is allocated: every write in a slot wait is mapped to it, its stall timer
stopped. A closing write whose last piece completes DONE creates its PUBLISH commit, tag 0, which arrives before the
drain count falls: it joins the queue behind the commit in progress, begins, or is discarded and the write answered
DENIED. That a drain count or a drain that this brings to its end is taken by a later command is the model's choice
(log 11); the data of a READ are fitted to its beats (log 9). -/
def Obligations.WindowPieceDone : Prop :=
  (∀ (tag : Fin 32) (data : List Dword) (q : MemRequest) (m : Fin 16) (id k : Nat) (e : Entry) (p : Piece) (w : Fin 16)
    (s : State), s.link.part = .running → s.places[tag] = some q → q.owner = .piece m id k →
    s.responses[m].find? (fun e => decide (e.id = id)) = some e → e.pieces[k]? = some p → e.window = some w →
    e.closing = false →
    let p' := p.complete e.request.kind .done data
    let finished : Bool := (e.pieces.set k p').all (fun p => decide (p.stage ≠ .unissued) && decide (p.stage ≠ .issued))
    let done (slots : Vector (Option SlotUnit) 16) (rolls : Vector (Option RollState) 16) : State :=
      State.updEntry { s with
          places := s.places.set tag none
          windows := s.windows.set w { s.windows[w] with inFlight := s.windows[w].inFlight - 1 }
          slots := slots
          rolls := rolls
          commits := if finished && e.inDrain
            then s.commits.set w { s.commits[w] with
              current := s.commits[w].current.map (fun c => { c with drain := c.drain - 1 }) }
            else s.commits }
        m id (fun x =>
          let y := { x with pieces := x.pieces.set k p' }
          if finished then y.settle else y)
    (∀ i u x, p.target = .slot i → s.slots[w] = some u → u.slots[i] = some x →
      (x.state ≠ .retiring ∨ s.windows[w].state ≠ .live ∨ u.filling ≠ none ∨ u.sealed ≠ none) →
      exec (.pieceCompletion tag .done data) s = .next (done
        (s.slots.set w (some (u.onSlot i (fun x =>
          { x with
            inFlight := x.inFlight - 1
            state := if x.state = .retiring ∧ x.inFlight ≤ 1 ∧ x.waiting = 0 then .free else x.state }))))
        s.rolls)) ∧
    (∀ n, p.target = .line n none → exec (.pieceCompletion tag .done data) s = .next (done s.slots s.rolls)) ∧
    ∀ n j d u, p.target = .line n (some j) → s.definition w = some d → s.rolls[w] = some u →
      d.targetPosition u.origin ≠ j →
      exec (.pieceCompletion tag .done data) s = .next (done s.slots
        (s.rolls.set w (some { u with reads := u.reads.modify j (· - 1) })))) ∧
  (∀ (tag : Fin 32) (data : List Dword) (q : MemRequest) (m : Fin 16) (id k : Nat) (e : Entry) (p : Piece) (w : Fin 16)
    (s : State), s.oneWaiting → s.link.part = .running → s.places[tag] = some q → q.owner = .piece m id k →
    s.responses[m].find? (fun e => decide (e.id = id)) = some e → e.pieces[k]? = some p → e.window = some w →
    e.closing = true → e.request.kind = .write → e.created = 0 → e.unresolved = 0 → e.anyTaken = false →
    (∀ (j : Nat) p', e.pieces[j]? = some p' → j ≠ k → p'.stage = .done []) →
    ((∃ i u x, p.target = .slot i ∧ s.slots[w] = some u ∧ u.slots[i] = some x ∧ x.state ≠ .retiring) ∨
      ∃ n, p.target = .line n none) →
    let commit : Commit := { action := .publish, tag := 0, master := some m, trigger := some (m, id) }
    let drained (x : CommitState) : CommitState := if e.inDrain then
      { x with current := x.current.map (fun c => { c with drain := c.drain - 1 }) } else x
    let stored (stage : Stage) (unresolved : Nat) (commits : Vector CommitState 16) (notice : NoticeUnit) : State :=
      State.updEntry { s with
          places := s.places.set tag none
          windows := s.windows.set w { s.windows[w] with inFlight := s.windows[w].inFlight - 1 }
          slots := match p.target with
            | .slot i => s.slots.set w (s.slots[w].map (fun u =>
                u.onSlot i (fun x => { x with inFlight := x.inFlight - 1 })))
            | _ => s.slots
          commits := commits
          notice := notice }
        m id (fun x => { x with
          pieces := x.pieces.set k (p.complete .write .done data), stage := stage, inDrain := false
          created := 1, unresolved := unresolved })
    (s.windows[w].state = .live → s.commits[w].queue.length < 4 →
      (s.commits[w].current.isSome = true ∨ s.commits[w].queue ≠ []) →
      exec (.pieceCompletion tag .done data) s = .next (stored .held 1
        (s.commits.set w (drained { s.commits[w] with queue := s.commits[w].queue ++ [commit] })) s.notice)) ∧
    (s.windows[w].state = .live → s.commits[w].queue = [] → s.commits[w].current = none → e.inDrain = false →
      exec (.pieceCompletion tag .done data) s = (stored .held 1 s.commits s.notice).begins w [] commit) ∧
    ∀ reason, arrivalReason s.windows[w].state s.commits[w].queue.length = some reason →
      exec (.pieceCompletion tag .done data) s = .next (stored (.complete ⟨.denied, []⟩) 0
        (s.commits.set w (drained s.commits[w]))
        (s.notice.take (.commitDiscarded w reason (some m) 0) s.timebase))) ∧
  ∀ (tag : Fin 32) (data : List Dword) (q : MemRequest) (m : Fin 16) (id k : Nat) (e : Entry) (p : Piece) (w : Fin 16)
    (i : Fin 4) (u : SlotUnit) (x : Slot) (d : Definition) (s : State), s.oneWaiting → s.link.part = .running →
    s.places[tag] = some q → q.owner = .piece m id k →
    s.responses[m].find? (fun e => decide (e.id = id)) = some e → e.pieces[k]? = some p → e.window = some w →
    e.closing = false → e.inSlotWait = false → p.target = .slot i → s.slots[w] = some u → u.slots[i] = some x →
    x.state = .retiring → x.inFlight ≤ 1 → x.waiting = 0 → s.windows[w].state = .live → u.filling = none →
    u.sealed = none → (∀ j < i, ∀ y, u.slots[j] = some y → y.state ≠ .free) → s.definition w = some d →
    ∃ t, exec (.pieceCompletion tag .done data) s = .next t ∧ s.allocated t w i u d

/-- R95, R98: the completion of the last counted read of the target position, with no view seeing it, clears the
visibility condition of every waiting write of the window and stops its timer. -/
def Obligations.LastTargetReadReleasesWrites : Prop :=
  ∀ (tag : Fin 32) (status : MemStatus) (data : List Dword) (q : MemRequest) (m : Fin 16) (id k : Nat) (e : Entry)
    (p : Piece) (w : Fin 16) (n j : Nat) (d : Definition) (u : RollState) (s : State), s.oneWaiting →
    s.link.part = .running → s.places[tag] = some q → q.owner = .piece m id k →
    s.responses[m].find? (fun e => decide (e.id = id)) = some e → e.pieces[k]? = some p → e.window = some w →
    e.request.kind = .read → e.closing = false → p.target = .line n (some j) → s.definition w = some d → s.rolls[w] = some u →
    d.targetPosition u.origin = j → u.reads[j]? = some 1 → u.seeing = 0 →
    ∃ t, exec (.pieceCompletion tag status data) s = .next t ∧
      ∀ m' e', s.current m' = some e' → e'.window = some w → e'.request.kind = .write →
        e'.hasCond .visibility = true →
        t.stallTimers[m'] = none ∧ ∃ x, t.current m' = some x ∧ x.id = e'.id ∧ x.hasCond .visibility = false

/-- R18, R19, R37: a MEMFAULT on the one piece of a request mapped to a slot posts MEMORY_FAULT with the window, the
master, the slot and the kind, and settles the request. A READ's fault is not reported to the window controller; a
producer write's, in a window that does not halt on it, changes nothing more. -/
def Obligations.PieceFaultReported : Prop :=
  (∀ (tag : Fin 32) (data : List Dword) (q : MemRequest) (m : Fin 16) (id : Nat) (e : Entry) (p : Piece) (w : Fin 16)
    (i : Fin 4) (u : SlotUnit) (x : Slot) (s : State), s.link.part = .running → s.places[tag] = some q →
    q.owner = .piece m id 0 → s.responses[m].find? (fun e => decide (e.id = id)) = some e → e.pieces = [p] →
    e.window = some w → e.request.kind = .read → e.closing = false → e.inDrain = false → p.target = .slot i →
    s.slots[w] = some u → u.slots[i] = some x → x.state ≠ .retiring →
    exec (.pieceCompletion tag .memfault data) s = .next (State.updEntry { s with
        places := s.places.set tag none
        windows := s.windows.set w { s.windows[w] with inFlight := s.windows[w].inFlight - 1 }
        slots := s.slots.set w (some (u.onSlot i (fun x => { x with inFlight := x.inFlight - 1 })))
        notice := s.notice.take (.memoryFault w m i.val .read) s.timebase }
      m id (fun x => Entry.settle { x with pieces := x.pieces.set 0 { p with stage := .faulted } }))) ∧
  ∀ (tag : Fin 32) (data : List Dword) (q : MemRequest) (m : Fin 16) (id : Nat) (e : Entry) (p : Piece) (w : Fin 16)
    (i : Fin 4) (u : SlotUnit) (x : Slot) (d : Definition) (s : State), s.link.part = .running →
    s.places[tag] = some q → q.owner = .piece m id 0 →
    s.responses[m].find? (fun e => decide (e.id = id)) = some e → e.pieces = [p] → e.window = some w →
    e.request.kind = .write → e.inDrain = false → p.target = .slot i → s.slots[w] = some u → u.slots[i] = some x →
    x.state ≠ .retiring → s.definition w = some d →
    (d.haltOnFault = false ∨ s.windows[w].state = .halted ∨ s.windows[w].state = .draining) →
    exec (.pieceCompletion tag .memfault data) s = .next (State.updEntry { s with
        places := s.places.set tag none
        windows := s.windows.set w { s.windows[w] with inFlight := s.windows[w].inFlight - 1 }
        slots := s.slots.set w (some (u.onSlot i (fun x => { x with inFlight := x.inFlight - 1 })))
        notice := s.notice.take (.memoryFault w m i.val .write) s.timebase }
      m id (fun x => Entry.settle { x with pieces := x.pieces.set 0 { p with stage := .faulted } }))

/-- R37, R38: a MEMFAULT on a producer write, in a LIVE window that halts on faults of a running part, halts the
window: the cause is recorded, no slot is FILLING or SEALED, the copier's jobs for it are dropped, its commits are
discarded with the fence down, and no producer write of it within reach is left waiting. -/
def Obligations.WriteFaultHaltsWindow : Prop :=
  ∀ (tag : Fin 32) (data : List Dword) (q : MemRequest) (m : Fin 16) (id k : Nat) (e : Entry) (p : Piece) (w : Fin 16)
    (d : Definition) (s : State), s.oneWaiting → s.link.part = .running → s.places[tag] = some q →
    q.owner = .piece m id k → s.responses[m].find? (fun e => decide (e.id = id)) = some e → e.pieces[k]? = some p →
    e.window = some w → e.request.kind = .write → s.windows[w].state = .live → s.definition w = some d →
    d.haltOnFault = true →
    (∀ u, s.slots[w] = some u → u.filling = none ∨ u.sealed = none) →
    ∃ t, exec (.pieceCompletion tag .memfault data) s = .next t ∧
      t.windows[w].state = .halted ∧ t.windows[w].haltCause = some .memfault ∧
      (∀ u, t.slots[w] = some u → u.filling = none ∧ u.sealed = none) ∧
      t.copier.jobs[w] = none ∧ (∀ x ∈ t.copier.urgent, x.window ≠ w) ∧
      t.commits[w] = { queue := [], current := none, fence := false } ∧
      ∀ m' e', t.current m' = some e' → e'.window = some w → e'.request.kind = .write → e'.reachable = false

/-- R49, R62, R77, R79, R84: a burst of a copy completes, no allocation following it: a read done DONE fills its
buffer, a write done DONE that is not the last empties it and counts, and a MEMFAULT on a first attempt fails it: what
is read and not written is given up, and with no burst left the retry starts from chunk 0. A later burst of a failed
attempt or of a dropped copy only empties its buffer; the last of a failed attempt starts the retry, and the last of a
dropped copy ends it, a block still COPYING in a FILLING slot returning to NEEDS_COPY. The data of a read are fitted to
16 beats (log 9). -/
def Obligations.CopierBurstCompleted : Prop :=
  ∀ (tag : Fin 32) (data : List Dword) (q : MemRequest) (j : Fin 4) (y : Copy) (b : Buffer) (d : Definition)
    (x : Slot) (s : State), s.link.part = .running → s.places[tag] = some q → q.owner = .copierBurst j →
    s.copier.copy = some y → s.copier.buffers[j] = some b →
    s.definition y.window = some d → s.slot y.window y.dest = some x →
    (x.state ≠ .retiring ∨ s.windows[y.window].state ≠ .live) →
    let after (c : Copier) (f : SlotState → SlotState) : State :=
      State.updSlot { s with places := s.places.set tag none, copier := c } y.window y.dest
        (fun x => { x with
          inFlight := x.inFlight - 1
          state := if x.state = .retiring ∧ x.inFlight ≤ 1 ∧ x.waiting = 0 then .free else f x.state })
    let othersInFlight := ∃ j' : Fin 4, j' ≠ j ∧ ∃ b', s.copier.buffers[j'] = some b' ∧ b'.inFlight = true
    let retried : Copier := { s.copier with
      buffers := Vector.replicate 4 none
      copy := some { y with attempt := .retry, failed := false, next := 0, written := 0 } }
    (y.dropped = false → y.failed = false →
      (b.stage = .reading → exec (.copierBurstCompletion tag .done data) s = .next (after
        { s.copier with buffers := s.copier.buffers.set j (some ⟨b.chunk, .full (fitBeats 16 data)⟩) } id)) ∧
      (∀ dt, b.stage = .writing dt → y.written + 1 ≠ d.chunks →
        exec (.copierBurstCompletion tag .done data) s = .next (after
          { s.copier with
            buffers := s.copier.buffers.set j none, copy := some { y with written := y.written + 1 } } id)) ∧
      (y.attempt = .first → othersInFlight →
        exec (.copierBurstCompletion tag .memfault data) s = .next (after
          { s.copier with
            buffers := (s.copier.buffers.set j none).map (Option.filter Buffer.inFlight)
            copy := some { y with failed := true } } id)) ∧
      (y.attempt = .first → ¬ othersInFlight →
        exec (.copierBurstCompletion tag .memfault data) s = .next (after retried id))) ∧
    ∀ status,
      (y.dropped = true ∨ y.failed = true → othersInFlight →
        exec (.copierBurstCompletion tag status data) s =
          .next (after { s.copier with buffers := s.copier.buffers.set j none } id)) ∧
      (y.dropped = false → y.failed = true → ¬ othersInFlight →
        exec (.copierBurstCompletion tag status data) s = .next (after retried id)) ∧
      (y.dropped = true → ¬ othersInFlight → s.copier.urgent = [] → (∀ w : Fin 16, s.copier.jobs[w] = none) →
        exec (.copierBurstCompletion tag status data) s = .next (after
          { s.copier with buffers := Vector.replicate 4 none, copy := none }
          (fun
            | .filling k => .filling (if k.map[y.block]? = some .copying
                then { k with map := k.map.set y.block .needsCopy } else k)
            | x => x)))

/-- R57 to R59, R75, R78: the last write burst of a copy into a FILLING slot completes DONE: the block is COPIED, and
no waiting write still waits on its copy. Into a SEALED slot with no other block left to copy, it publishes that slot:
the slot becomes the front with the next generation, PUBLISHED is posted with the tag of the seal, and no view changes,
no other slot holding that generation. Both hold whichever of the copier and the slot manager acts first (log 6). -/
def Obligations.CopyEndReleasesWrites : Prop :=
  (∀ (tag : Fin 32) (data : List Dword) (q : MemRequest) (j : Fin 4) (y : Copy) (b : Buffer) (dt : List Dword)
    (d : Definition) (u : SlotUnit) (x : Slot) (k : Work) (s : State), s.link.part = .running →
    s.places[tag] = some q → q.owner = .copierBurst j → s.copier.copy = some y → y.dropped = false →
    y.failed = false → s.copier.buffers[j] = some b → b.stage = .writing dt → s.definition y.window = some d →
    y.written + 1 = d.chunks → s.slots[y.window] = some u → u.slots[y.dest] = some x → x.state = .filling k →
    k.map[y.block]? = some .copying →
    (∀ a ∈ s.copier.urgent, ¬ (a.window = y.window ∧ a.slot = y.dest ∧ a.block = y.block)) →
    ∃ t, exec (.copierBurstCompletion tag .done data) s = .next t ∧
      (∃ k', t.work y.window y.dest = some k' ∧ k'.map[y.block]? = some .copied ∧ k'.written = k.written) ∧
      ∀ m e p, t.current m = some e → e.window = some y.window → p ∈ e.pieces → p.target = .slot y.dest →
        p.unit = y.block → p.cond ≠ .copyWait) ∧
  ∀ (tag : Fin 32) (data : List Dword) (q : MemRequest) (j : Fin 4) (y : Copy) (b : Buffer) (dt : List Dword)
    (d : Definition) (u : SlotUnit) (x : Slot) (k : Work) (g : BitVec 16) (s : State), s.link.part = .running →
    s.places[tag] = some q → q.owner = .copierBurst j → s.copier.copy = some y → y.dropped = false →
    y.failed = false → s.copier.buffers[j] = some b → b.stage = .writing dt → s.definition y.window = some d →
    y.written + 1 = d.chunks → s.slots[y.window] = some u → u.sealed = some y.dest → u.front ≠ y.dest →
    u.slots[y.dest] = some x → x.state = .sealed k g →
    (∀ n : Nat, n ≠ y.block → k.map[n]? ≠ some BlockState.needsCopy ∧ k.map[n]? ≠ some BlockState.copying) →
    (∀ a ∈ s.copier.urgent, ¬ (a.window = y.window ∧ a.slot = y.dest)) →
    (∀ (i : Fin 4) z, i ≠ u.front → u.slots[i] = some z → z.state ≠ .published (u.counter + 1)) →
    ∃ t u' x', exec (.copierBurstCompletion tag .done data) s = .next t ∧ t.slots[y.window] = some u' ∧
      u'.front = y.dest ∧ u'.counter = u.counter + 1 ∧ u'.sealed = none ∧ u'.slots[y.dest] = some x' ∧
      x'.state = .published (u.counter + 1) ∧ t.views = s.views ∧
      t.notice = s.notice.take (.published y.window y.dest (u.counter + 1) g) s.timebase

/-- R38, R80, R81: a MEMFAULT on a burst of the retry, in a LIVE window that halts on faults: BACKFILL_FAILED is
posted, the window halts with the cause BACKFILL_FAILED, no slot FILLING or SEALED, no work left for the window but
the dropped copy's bursts, and the generation counter and the front stay as they were. -/
def Obligations.RetryFaultFailsBackfill : Prop :=
  ∀ (tag : Fin 32) (data : List Dword) (q : MemRequest) (j : Fin 4) (y : Copy) (b : Buffer) (d : Definition)
    (u : SlotUnit) (s : State), s.link.part = .running → s.places[tag] = some q → q.owner = .copierBurst j →
    s.copier.copy = some y → y.dropped = false → y.failed = false → y.attempt = .retry →
    s.copier.buffers[j] = some b → s.definition y.window = some d → d.haltOnFault = true →
    s.windows[y.window].state = .live → s.slots[y.window] = some u →
    ((u.filling = some y.dest ∧ u.sealed = none) ∨ (u.filling = none ∧ u.sealed = some y.dest)) →
    ∃ t u', exec (.copierBurstCompletion tag .memfault data) s = .next t ∧
      t.windows[y.window].state = .halted ∧ t.windows[y.window].haltCause = some .backfillFailed ∧
      t.slots[y.window] = some u' ∧ u'.filling = none ∧ u'.sealed = none ∧ u'.front = u.front ∧
      u'.counter = u.counter ∧ t.copier.jobs[y.window] = none ∧
      (∀ a ∈ t.copier.urgent, a.window ≠ y.window) ∧
      (∀ c, t.copier.copy = some c → c.window = y.window → c.dropped = true) ∧
      (s.notice.ring = .active → s.notice.mask.getLsbD 11 = true → s.notice.pending.length < 32 →
        (⟨.backfillFailed y.window y.block ((s.slot y.window y.dest).any (fun x =>
          match x.state with
          | .sealed _ _ => true
          | _ => false)), s.timebase⟩ : Notice) ∈ t.notice.pending)

/-! ## The notice ring -/

/-- R137, R142, R143, R144, R147, R148: a notice write that is not stale completes DONE in an ACTIVE ring: a record
moves the write index and the sequence number and may start the holdoff timer; a write-back moves the written-back
index, ATTN following. Completing MEMFAULT, it makes the ring FAULTED, its indices kept, the pending queue emptied
and ATTN asserted. A stale one changes nothing but that it has ended. -/
def Obligations.NoticeWriteCompleted : Prop :=
  (∀ (tag : Fin 32) (q : MemRequest) (f : NoticeInFlight) (d : RingDef) (s : State), s.link.part = .running →
    s.places[tag] = some q → q.owner = .noticeWrite → s.notice.inFlight = some f → f.stale = false →
    s.notice.ring = .active → s.notice.definition = some d →
    (f.write = .record → exec (.recordWriteCompletion tag .done) s = .next { s with
      places := s.places.set tag none
      notice := { s.notice with
        inFlight := none
        write := (s.notice.write + 1) % d.entries
        sequence := s.notice.sequence + 1
        holdoff := if 0 < d.holdoff ∧ (s.notice.write + d.entries - s.notice.writtenBack) % d.entries = 0
          then .running s.timebase else s.notice.holdoff } }) ∧
    ∀ v, f.write = .writeBack v → exec (.writeBackCompletion tag .done) s = .next { s with
      places := s.places.set tag none
      notice := { s.notice with
        inFlight := none, writtenBack := v, attn := decide (v ≠ s.notice.consumed) } }) ∧
  ∀ (tag : Fin 32) (q : MemRequest) (f : NoticeInFlight) (s : State), s.link.part = .running →
    s.places[tag] = some q → q.owner = .noticeWrite → s.notice.inFlight = some f →
    let faulted : State := { s with
      places := s.places.set tag none
      notice := { s.notice with
        inFlight := none, ring := .faulted, pending := [], holdoff := .stopped, flush := false, attn := true } }
    let ignored : State :=
      { s with places := s.places.set tag none, notice := { s.notice with inFlight := none } }
    (f.write = .record → f.stale = false → exec (.recordWriteCompletion tag .memfault) s = .next faulted) ∧
    (∀ v, f.write = .writeBack v → f.stale = false →
      exec (.writeBackCompletion tag .memfault) s = .next faulted) ∧
    (∀ status, f.write = .record → f.stale = true →
      exec (.recordWriteCompletion tag status) s = .next ignored) ∧
    ∀ status v, f.write = .writeBack v → f.stale = true →
      exec (.writeBackCompletion tag status) s = .next ignored

/-- R139, R140: what the notice unit does with a posting, in its order: discarded by a ring that is not ACTIVE or by
the mask, lost and counted by a full queue, else queued with its timestamp. -/
def Obligations.PostingTaken : Prop :=
  ∀ (n : NoticeUnit) (b : NoticeBody) (now : Micros),
    (n.ring ≠ .active ∨ n.mask.getLsbD b.code = false → n.take b now = n) ∧
    (n.ring = .active → n.mask.getLsbD b.code = true → 32 ≤ n.pending.length →
      n.take b now = { n with lost := if n.lost < 255 then n.lost + 1 else 255 }) ∧
    (n.ring = .active → n.mask.getLsbD b.code = true → n.pending.length < 32 →
      n.take b now = { n with pending := n.pending ++ [⟨b, now⟩] }) ∧
    1 ≤ b.code ∧ b.code ≤ 14

/-- R146: INDEX_ERROR is set when a consumed-index store is ignored, with no notice posted, no index changed and ATTN
left as it is; READ RING STATUS reports it and then clears it, SET NOTICE RING and either reset clear it, and nothing
else changes it. -/
def Obligations.IndexErrorRecordsIgnoredStores : Prop :=
  (∀ (m : Fin 16) (r : Request) (d : RingDef) (b : Beat) (s : State), s.mayTake m r → crossesPage r = false →
    touchedWindows r s = [] → r.kind = .write → s.notice.ring ≠ .unset → s.notice.definition = some d →
    includesWord r d.consumed = true → beatHolding r d.consumed = some b →
    (∀ w d' a, s.windows[(w : Fin 16)].state ≠ .undefined → s.definition w = some d' → d'.word = some a →
      includesWord r a = false) →
    (b.lanes ≠ 0xFF ∨ d.entries ≤ b.data.toNat ∨
      (s.notice.write + d.entries - s.notice.consumed) % d.entries <
        (b.data.toNat + d.entries - s.notice.consumed) % d.entries) →
    exec (.classification m) s =
      .next { s.passed m r 0 0 with notice := { s.notice with indexError := true } }) ∧
  (∀ (params : List Byte) (s : State), s.link.awaitRise = false →
    exec (.readRingStatus params) s = .next { s with
      link := s.link.captured [0x85]
        ([match s.notice.ring with
          | .unset => 0
          | .active => 1
          | .faulted => 2,
          if s.notice.indexError then 1 else 0, BitVec.ofNat 8 s.notice.lost, 0] ++
        leBytes 2 s.notice.write ++ leBytes 2 s.notice.consumed ++ leBytes 2 s.notice.writtenBack)
      notice := { s.notice with indexError := false } }) ∧
  (∀ (params : List Byte) (s t : State), exec (.setNoticeRing params) s = .next t →
    t.link.result.result = .accepted → t.link.result.sequence = s.link.result.sequence + 1 →
    t.notice.indexError = false) ∧
  (∀ (b : Bool) (s t : State), exec (.hardReset b) s = .next t → t.notice.indexError = false) ∧
  (∀ (c : Instr) (s t : State), exec c s = .next t → s.link.part = .resetting → t.link.part = .running →
    t.notice.indexError = false) ∧
  (∀ (c : Instr) (s t : State), exec c s = .next t → s.notice.indexError = true → t.notice.indexError = false →
    (∃ params, c = .readRingStatus params) ∨ (∃ params, c = .setNoticeRing params) ∨ (∃ b, c = .hardReset b) ∨
    (t.link.part = .running ∧ (s.link.part = .resetting ∨ ∃ params, c = .softReset params))) ∧
  ∀ (c : Instr) (s t : State), exec c s = .next t → s.notice.indexError = false → t.notice.indexError = true →
    ∃ m, c = .classification m

/-- R143, R162: the holdoff timer expires when the timebase has counted the holdoff since its start, and not before.
The timebase counts the microseconds modulo 2^32, is 0 after a hard reset, and nothing else changes it. That an
expiry is a command of its own, due from that count on, is the model's choice (log 16). -/
def Obligations.TimebaseAndHoldoff : Prop :=
  (∀ (start : Micros) (d : RingDef) (s : State), s.notice.holdoff = .running start → s.notice.definition = some d →
    (d.holdoff ≤ (s.timebase - start).toNat →
      exec .holdoffExpiry s = .next { s with notice := { s.notice with holdoff := .expired } }) ∧
    ((s.timebase - start).toNat < d.holdoff → exec .holdoffExpiry s = .next s)) ∧
  (∀ s : State, exec .timebaseIncrement s = .next { s with timebase := BitVec.ofNat 32 (s.timebase.toNat + 1) }) ∧
  ∀ (c : Instr) (s t : State), exec c s = .next t → c ≠ .timebaseIncrement →
    t.timebase = match c with
      | .hardReset _ => 0
      | _ => s.timebase

/-! ## Frame starts, timers and resets -/

/-- R46, R47, R55, R61, R96, R98, R108, R110, R111, R112, R116: a rising edge on FRMc is a frame start for each view of a
bound LINE consumer c in a LIVE or HALTED window of a running part: it is pinned to the front or the current origin
with lag 0, its frame count rises, its mark becomes none and its idle timer restarts; no other view changes. The
front's pin count rises by one unless the view already held it, that of a slot given up falls by one, and no other
slot's changes. A slot given up, PUBLISHED as one that a view is PINNED to is (R110), retires with its last pin, where
no source hold is on it (R61): RETIRING while a count of it is above 0, else FREE, and then allocated where the window
is LIVE with no FILLING, SEALED or other FREE slot (R46, R47). A rolling window's seeing count falls by one where the
view saw the target (R96), and the writes waiting on the target are released where it is then clear (R98). Otherwise
nothing changes. -/
def Obligations.FrameLineStartsFrames : Prop :=
  ((∀ (c : Fin 8) (s : State), s.link.part ≠ .running ∨ (∀ b, s.consumers[c] = some b → b.source ≠ .line) →
    exec (.frameLineEvent c) s = .next s) ∧
  ∀ (c : Fin 8) (b : Binding) (s : State), s.link.part = .running → s.consumers[c] = some b → b.source = .line →
    ∃ t, exec (.frameLineEvent c) s = .next t ∧
      (∀ w v u g, s.view w c = some v → (s.windows[w].state = .live ∨ s.windows[w].state = .halted) →
        s.slots[w] = some u → s.generation w u.front = g →
        t.view w c = some { state := .pinnedSlot u.front g, frames := v.frames + 1, mark := none,
                            timer := if b.idle = 0 then v.timer else some s.timebase }) ∧
      (∀ w v u, s.view w c = some v → (s.windows[w].state = .live ∨ s.windows[w].state = .halted) →
        s.slots[w] = none → s.rolls[w] = some u →
        t.view w c = some { state := .pinnedOrigin u.origin 0, frames := v.frames + 1, mark := none,
                            timer := if b.idle = 0 then v.timer else some s.timebase }) ∧
      (∀ w c', c' ≠ c ∨ (s.windows[w].state ≠ .live ∧ s.windows[w].state ≠ .halted) → t.view w c' = s.view w c')) ∧
  (∀ (c : Fin 8) (b : Binding) (w : Fin 16) (v : View) (u : SlotUnit) (s : State), s.link.part = .running →
    s.consumers[c] = some b → b.source = .line → s.view w c = some v →
    (s.windows[w].state = .live ∨ s.windows[w].state = .halted) → s.slots[w] = some u →
    (∀ o lag, v.state ≠ .pinnedOrigin o lag) →
    ∃ t, exec (.frameLineEvent c) s = .next t ∧
      ∀ i x, u.slots[(i : Fin 4)] = some x →
        (∃ x', t.slot w i = some x' ∧
          (x'.pins = if v.pinsSlot i = true ∧ i ≠ u.front then x.pins - 1
            else if i = u.front ∧ v.pinsSlot i = false then x.pins + 1 else x.pins) ∧
          (v.pinsSlot i = true → i ≠ u.front → x.isPublished = true → s.freesNone w u x → x' = x.released)) ∧
        (v.pinsSlot i = true → i ≠ u.front → s.frees w u i x → s.oneWaiting → ∀ d, s.definition w = some d →
          s.allocated t w i u d)) ∧
  ∀ (c : Fin 8) (b : Binding) (w : Fin 16) (v : View) (d : Definition) (u : RollState) (s : State), s.oneWaiting →
    s.link.part = .running → s.consumers[c] = some b → b.source = .line → s.view w c = some v →
    (s.windows[w].state = .live ∨ s.windows[w].state = .halted) → s.slots[w] = none → s.rolls[w] = some u →
    s.definition w = some d →
    let sees : Prop := ∃ o lag, v.state = .pinnedOrigin o lag ∧ d.staging ≤ lag
    ∃ t, exec (.frameLineEvent c) s = .next t ∧
      (sees → t.rolls[w] = some { u with seeing := u.seeing - 1 } ∧
        ∀ m e, s.current m = some e → e.awaitsTarget w = true →
          t.current m = (s.leftSeeing w d u).current m ∧ t.stallTimers[m] = (s.leftSeeing w d u).stallTimers[m]) ∧
      (¬ sees → t.rolls[w] = some u)

/-- R64, R65, R66, R99, R101: a slot wait that has run its stall limit under STALL is answered DENIED SLOT_EXHAUSTED,
a visibility wait DENIED TARGET_VISIBLE, and each leaves the drain set it is in; the slots and lines are left as they
are. Before the limit nothing happens. That an expiry is a command of its own, due from the limit on, is the model's
choice (log 16). -/
def Obligations.StallExpiryAnswersWait : Prop :=
  ((∀ (m : Fin 16) (s : State), (∀ x, s.stallTimers[m] = some x → (s.timebase - x.start).toNat < x.limit) →
    exec (.slotWaitTimerExpiry m) s = .next s ∧ exec (.visibilityWaitTimerExpiry m) s = .next s) ∧
  ∀ (m : Fin 16) (x : Timer) (e : Entry) (w : Fin 16) (d : Definition) (s : State), s.stallTimers[m] = some x →
    x.limit ≤ (s.timebase - x.start).toNat → s.current m = some e → e.stage = .waiting (.slot true) → e.pieces = [] →
    e.window = some w → s.definition w = some d → d.policy = .stall →
    exec (.slotWaitTimerExpiry m) s = .next (State.updEntry { s with
        stallTimers := s.stallTimers.set m none
        windows := s.windows.set w { s.windows[w] with waiting := s.windows[w].waiting - 1 }
        commits := if e.inDrain
          then s.commits.set w { s.commits[w] with
            current := s.commits[w].current.map (fun c => { c with drain := c.drain - 1 }) }
          else s.commits
        notice := s.notice.take (deniedNotice (some w) m .slotExhausted e.request) s.timebase }
      m e.id (fun x => { x with stage := .complete (deniedResponse x.request), inDrain := false }))) ∧
  ∀ (m : Fin 16) (x : Timer) (e : Entry) (w : Fin 16) (d : Definition) (s : State), s.stallTimers[m] = some x →
    x.limit ≤ (s.timebase - x.start).toNat → s.current m = some e → e.hasCond .visibility = true →
    (∀ p ∈ e.pieces, ∃ n, p.target = .line n none) → e.window = some w → s.definition w = some d →
    d.policy = .stall →
    exec (.visibilityWaitTimerExpiry m) s = .next (State.updEntry { s with
        stallTimers := s.stallTimers.set m none
        windows := s.windows.set w { s.windows[w] with waiting := s.windows[w].waiting - 1 }
        commits := if e.inDrain
          then s.commits.set w { s.commits[w] with
            current := s.commits[w].current.map (fun c => { c with drain := c.drain - 1 }) }
          else s.commits
        notice := s.notice.take (deniedNotice (some w) m .targetVisible e.request) s.timebase }
      m e.id (fun x => { x with stage := .complete (deniedResponse x.request), inDrain := false }))

/-- R46, R61, R67, R96, R98, R100, R118: a slot wait that has run its stall limit under RECLAIM goes on without a
limit, its timer stopped, and where a non-front PUBLISHED slot exists, the oldest is reclaimed: every view pinned to
it is TORN, its mark none, and the slot leaves PUBLISHED: RETIRING while a count of it is above 0, else FREE, and then
allocated where the window is LIVE with no FILLING, SEALED or FREE slot. The slot's pin count is the number of views
pinned to it, and it is no backfill source. The front and the generation counter are kept. A visibility wait that has
run it goes on without a limit, and every view of the window that sees the target is TORN; where the seeing count is
their number, it is then 0, and with no counted read of the target position every write of the window in a visibility
wait is released (R96, R98). No other view changes. That an expiry is a command of its own, due from the limit on, is
the model's choice (log 16). -/
def Obligations.ReclaimTearsViews : Prop :=
  (∀ (m : Fin 16) (x : Timer) (e : Entry) (w : Fin 16) (d : Definition) (u : SlotUnit) (s : State),
    s.stallTimers[m] = some x → x.limit ≤ (s.timebase - x.start).toNat → s.current m = some e →
    e.stage = .waiting (.slot true) → e.window = some w → s.definition w = some d → d.policy = .reclaim →
    s.slots[w] = some u →
    ((∀ (i : Fin 4) y, i ≠ u.front → u.slots[i] = some y → y.isPublished = false) →
      exec (.slotWaitTimerExpiry m) s = .next { s with stallTimers := s.stallTimers.set m none }) ∧
    ∀ (i : Fin 4) (y : Slot) (g : BitVec 32), i ≠ u.front → u.slots[i] = some y → y.state = .published g →
      (∀ (j : Fin 4) z g', j ≠ u.front → j ≠ i → u.slots[j] = some z → z.state = .published g' →
        (u.counter - g').toNat < (u.counter - g).toNat) →
      y.hold = false → y.pins = consumerNumbers.countP (fun c => (s.view w c).any (fun v => v.pinsSlot i)) →
      ∃ t u' y', exec (.slotWaitTimerExpiry m) s = .next t ∧ t.slots[w] = some u' ∧ u'.front = u.front ∧
        u'.counter = u.counter ∧ t.stallTimers[m] = none ∧ u'.slots[i] = some y' ∧ y'.isPublished = false ∧
        (y.inFlight ≠ 0 ∨ y.waiting ≠ 0 → y'.state = .retiring) ∧
        (y.inFlight = 0 → y.waiting = 0 →
          (s.windows[w].state ≠ .live ∨ u.filling ≠ none ∨ u.sealed ≠ none → y'.state = .free) ∧
          (s.windows[w].state = .live → u.filling = none → u.sealed = none →
            (∀ (j : Fin 4) z, u.slots[j] = some z → z.state ≠ .free) → u'.filling = some i)) ∧
        (∀ c v g', s.view w c = some v → v.state = .pinnedSlot i g' →
          t.view w c = some { v with state := .torn, mark := none }) ∧
        (∀ w' c v, s.view w' c = some v → (w' ≠ w ∨ ∀ g', v.state ≠ .pinnedSlot i g') → t.view w' c = some v)) ∧
  ∀ (m : Fin 16) (x : Timer) (e : Entry) (w : Fin 16) (d : Definition) (u : RollState) (s : State),
    s.stallTimers[m] = some x → x.limit ≤ (s.timebase - x.start).toNat → s.current m = some e →
    e.hasCond .visibility = true → e.window = some w → s.definition w = some d → d.policy = .reclaim →
    s.rolls[w] = some u →
    ∃ t u', exec (.visibilityWaitTimerExpiry m) s = .next t ∧ t.rolls[w] = some u' ∧ u'.origin = u.origin ∧
      u'.serial = u.serial ∧ u'.reads = u.reads ∧ t.stallTimers[m] = none ∧
      (u.seeing = consumerNumbers.countP (fun c => (s.view w c).any (fun v => v.sees d)) → u'.seeing = 0 ∧
        (s.oneWaiting → u.seeing ≠ 0 → u.readCount (d.targetPosition u.origin) = 0 →
          ∀ m' e', s.current m' = some e' → e'.awaitsTarget w = true →
            t.stallTimers[m'] = none ∧ ∃ y, t.current m' = some y ∧ y.id = e'.id ∧ y.hasCond .visibility = false)) ∧
      (∀ c v o lag, s.view w c = some v → v.state = .pinnedOrigin o lag → d.staging ≤ lag →
        t.view w c = some { v with state := .torn, mark := none }) ∧
      (∀ w' c v, s.view w' c = some v → (w' ≠ w ∨ ∀ o lag, v.state = .pinnedOrigin o lag → lag < d.staging) →
        t.view w' c = some v)

/-- R46, R47, R55, R61, R96, R98, R116: an idle timer that has run the consumer's idle limit releases a PINNED view,
with VIEW_RELEASED, and makes a TORN one UNPINNED silently; the mark becomes none and the timer stops. The pin count
of the slot it was PINNED to falls by one (R55), and a slot other than the front retires with its last pin, where no
source hold is on it (R61): RETIRING while a count of it is above 0, else FREE, and then allocated where the window is
LIVE with no FILLING, SEALED or other FREE slot (R46, R47). A view that saw the target leaves seeing (R96): the seeing
count falls by one and, where the target is then clear, the writes waiting on it are released (R98). Before the limit
nothing happens. That an expiry is a command of its own, due from the limit on, is the model's choice (log 16). -/
def Obligations.IdleExpiryReleasesView : Prop :=
  ∀ (w : Fin 16) (c : Fin 8) (b : Binding) (v : View) (start : Micros) (s : State), s.consumers[c] = some b →
    s.view w c = some v → v.timer = some start →
    let freed : View := { v with state := .unpinned, mark := none, timer := none }
    (b.idle = 0 ∨ (s.timebase - start).toNat < b.idle → exec (.idleExpiry w c) s = .next s) ∧
    (b.idle ≠ 0 → b.idle ≤ (s.timebase - start).toNat →
      (v.state = .torn → exec (.idleExpiry w c) s = .next (s.updView w c (fun _ => freed))) ∧
      (∀ i g u x, v.state = .pinnedSlot i g → s.slots[w] = some u → u.slots[i] = some x →
        let released (f : Slot → Slot) : State := State.updView { s with
            slots := s.slots.set w (some (u.onSlot i f))
            notice := s.notice.take (.viewReleased w c) s.timebase } w c (fun _ => freed)
        (i = u.front → exec (.idleExpiry w c) s = .next (released (fun x => { x with pins := x.pins - 1 }))) ∧
        (i ≠ u.front → s.freesNone w u x → exec (.idleExpiry w c) s = .next (released Slot.released)) ∧
        (i ≠ u.front → s.frees w u i x → s.oneWaiting → ∀ d, s.definition w = some d →
          ∃ t, exec (.idleExpiry w c) s = .next t ∧ s.allocated t w i u d ∧ t.view w c = some freed ∧
            t.notice = s.notice.take (.viewReleased w c) s.timebase)) ∧
      ∀ o lag d, v.state = .pinnedOrigin o lag → s.definition w = some d →
        (lag < d.staging → exec (.idleExpiry w c) s = .next (State.updView
          { s with notice := s.notice.take (.viewReleased w c) s.timebase } w c (fun _ => freed))) ∧
        ∀ u, s.oneWaiting → d.staging ≤ lag → s.rolls[w] = some u → exec (.idleExpiry w c) s = .next (State.updView
          { s.leftSeeing w d u with notice := s.notice.take (.viewReleased w c) s.timebase } w c (fun _ => freed)))

/-- R151, R152, R153, R166: the link on its pins, edge by edge. After a reset released with SSEL low it takes no frame
until SSEL rises (that a command ended meanwhile has no effect is the model's choice: log 8). Else a fall of SSEL
begins a frame, SDO at 0. A rising SCK takes a bit of SDI in, a falling one puts the next bit of SDO's byte out, most
significant bit first (log 26), 0 where it has no byte to carry; the eighth bit in completes a byte, and with its last
selector byte a read command is taken. A rise of SSEL ends the frame and drops the bits of an incomplete byte: a write
command is taken, an unknown code as a write command; a frame without a complete byte, and a read frame, have no more
effect. SDO is driven within a frame and not while SSEL is high. So a whole frame clocked in bit by bit is the write
command of its code and complete bytes, whatever bits of a further byte come, or the read command of its code and
selectors. Without a frame SCK does nothing. -/
def Obligations.LinkFramesEdgeByEdge : Prop :=
  (∀ (b : Bool) (s t : State), exec (.hardReset b) s = .next t → t.link.awaitRise = b ∧ t.link.frame = none) ∧
  (∀ s : State, exec .sselRiseAfterReset s = .next { s with link := { s.link with awaitRise := false } }) ∧
  (∀ (params : List Byte) (s : State), s.link.awaitRise = true →
    (∀ x ∈ fixedLengthCommands params, exec x.1 s = .next s) ∧ exec (.defineWindow params) s = .next s ∧
    (∀ code, exec (.unknownCommandFrame code params) s = .next s) ∧
    ∀ x ∈ readFrames params, exec x.1 s = .next s) ∧
  (∀ s : State, (∀ f, s.link.frame = some f → s.link.sdo = some f.sdo) ∧
    (s.link.frame = none → s.link.awaitRise = false → s.link.sdo = none)) ∧
  (∀ (e : LinkEdge) (rest : List LinkEdge) (s : State), s.pending = [] → s.edges = e :: rest →
    let within (frame : Option Frame) : State := { s with edges := rest, link := { s.link with frame := frame } }
    (s.link.frame = none → s.link.awaitRise = true → step s = .next { s with
      edges := rest, link := { s.link with awaitRise := decide (e ≠ .sselRise) } }) ∧
    (s.link.frame = none → s.link.awaitRise = false → step s = .next (within
      (if e = .sselFall then some { bytes := [], bits := [], out := [], sdo := false } else none))) ∧
    ∀ f, s.link.frame = some f →
      (e = .sselFall → step s = .next (within (some f))) ∧
      (e = .sckFall → step s = .next (within (some { f with sdo := (f.out.headD 0).getMsbD f.bits.length }))) ∧
      (∀ sdi, e = .sckRise sdi → f.bits.length < 7 →
        step s = .next (within (some { f with bits := f.bits ++ [sdi] }))) ∧
      (∀ b : Byte, e = .sckRise (b.getMsbD 7) → f.bits = (List.range 7).map b.getMsbD →
        let completed : State :=
          within (some { bytes := f.bytes ++ [b], bits := [], out := f.out.tail, sdo := f.sdo })
        (∀ code params, f.bytes ++ [b] = code :: params → ∀ x ∈ readFrames params, x.2.1 = code →
          params.length = x.2.2 → step s = exec x.1 completed) ∧
        ((∀ code params, f.bytes ++ [b] = code :: params → ∀ x ∈ readFrames params, x.2.1 = code →
          params.length ≠ x.2.2) → step s = .next completed)) ∧
      (e = .sselRise → (f.bytes = [] → step s = .next (within none)) ∧
        ∀ code params, f.bytes = code :: params →
          (∀ x ∈ readFrames params, x.2.1 = code → step s = .next (within none)) ∧
          (∀ x ∈ fixedLengthCommands params, x.2.1 = code → step s = exec x.1 (within (some f))) ∧
          (code = 0x01 → step s = exec (.defineWindow params) (within (some f))) ∧
          (namesCommand code = false → step s = exec (.unknownCommandFrame code params) (within (some f))))) ∧
  ∀ (code : Byte) (params : List Byte) (rest : List LinkEdge) (s : State), s.pending = [] → s.link.frame = none →
    s.link.awaitRise = false →
    let clocked := (code :: params).flatMap byteEdges
    let arrived (bits : List Bool) : State := { s with
      edges := rest, link := { s.link with frame := some { bytes := code :: params, bits, out := [], sdo := false } } }
    (∀ (extra : List Bool) (c : Instr), extra.length < 8 →
      ((c, code) ∈ (fixedLengthCommands params).map (fun x => (x.1, x.2.1)) ∨ (c = .defineWindow params ∧ code = 0x01) ∨
        (c = .unknownCommandFrame code params ∧ namesCommand code = false)) →
      s.edges = [.sselFall] ++ clocked ++ extra.flatMap bitEdges ++ [.sselRise] ++ rest →
      steps (clocked.length + 2 * extra.length + 2) s = exec c (arrived extra)) ∧
    ∀ x ∈ readFrames params, x.2.1 = code → params.length = x.2.2 → s.edges = [.sselFall] ++ clocked.dropLast ++ rest →
      steps clocked.length s = exec x.1 (arrived [])

/-- R22, R24, R42, R73, R106, R122, R123, R154, R162, R166: a hard reset ends everything: every queue, list and place
is empty, every window UNDEFINED, every working record gone, every binding unbound, the result record and the timebase
at their reset values, and the frame in progress discarded (R151); the notice unit's values stand in the next statement,
HardResetNoticeUnit (O42). The model keeps only its queues of commands and edges still to come and its own counters
(log 22). -/
def Obligations.HardResetClearsPart : Prop :=
  ∀ (b : Bool) (s : State), ∃ t, exec (.hardReset b) s = .next t ∧
    (∀ m : Fin 16, t.intake[m] = [] ∧ t.onBus[m] = [] ∧ t.responses[m] = [] ∧ t.stallTimers[m] = none) ∧
    (∀ i : Fin 32, t.places[i] = none) ∧ t.lastGranted = .copier ∧
    (∀ w : Fin 16, t.windows[w] =
        { state := .undefined, definition := none, inFlight := 0, waiting := 0, haltCause := none } ∧
      t.slots[w] = none ∧ t.rolls[w] = none ∧ (∀ c, t.view w c = none) ∧ t.copier.jobs[w] = none ∧
      t.commits[w] = { queue := [], current := none, fence := false }) ∧
    (∀ c : Fin 8, t.consumers[c] = none) ∧ t.copier.urgent = [] ∧ t.copier.pointer = 15 ∧ t.copier.copy = none ∧
    (∀ j : Fin 4, t.copier.buffers[j] = none) ∧
    t.link = { part := .running, frame := none, awaitRise := b,
               result := { lastCommand := none, result := .accepted, param := 0, sequence := 0 } } ∧
    t.timebase = 0 ∧ t.pending = s.pending ∧ t.edges = s.edges

/-- R150: a hard reset sets the notice unit to its reset values and forgets a notice write in flight; no notice write
is issued, and no ring becomes defined, until SET NOTICE RING gives a definition. -/
def Obligations.HardResetNoticeUnit : Prop :=
  (∀ (b : Bool) (s : State), ∃ t, exec (.hardReset b) s = .next t ∧
    t.notice = { ring := .unset, definition := none, write := 0, consumed := 0, writtenBack := 0, sequence := 0,
                 lost := 0, pending := [], mask := 0xFFFF, indexError := false, holdoff := .stopped, flush := false,
                 owed := false, inFlight := none, attn := false } ∧
    ∀ i : Fin 32, t.places[i] = none) ∧
  ∀ (c : Instr) (s t : State), exec c s = .next t → s.notice.ring = .unset → s.notice.inFlight = none →
    (∀ params, c ≠ .setNoticeRing params) →
    t.notice.ring = .unset ∧ t.notice.inFlight = none ∧
    ∀ (i : Fin 32) q, t.places[i] = some q → q.owner = .noticeWrite → s.places[i] = some q

/-! ## Commits, drains and soft resets -/

/-- R56, R58, R59, R131, R132: a PUBLISH commit whose drain set has ended publishes the FILLING slot, written and with
no block left to copy: it becomes the front with the next generation, PUBLISHED is posted, a former front that is
pinned keeps its generation, no view changes, the fence drops, and the held store that triggered it is answered
DONE. -/
def Obligations.PublishTaken : Prop :=
  ∀ (w : Fin 16) (c : Commit) (u : SlotUnit) (i : Fin 4) (k : Work) (d : Definition) (s : State),
    s.oneWaiting → s.commits[w] = { queue := [], current := some ⟨c, 0⟩, fence := true } → c.action = .publish →
    s.noneFenced w → s.slots[w] = some u → u.filling = some i → u.front ≠ i → s.work w i = some k → s.definition w = some d →
    k.written ≠ 0 → (d.requiresFull = true → d.units ≤ k.written) →
    (∀ b : Nat, k.map[b]? ≠ some BlockState.needsCopy ∧ k.map[b]? ≠ some BlockState.copying) →
    (∀ (j : Fin 4) x, j ≠ u.front → u.slots[j] = some x → x.state ≠ .published (u.counter + 1)) →
    ∃ t u' x', exec (.commitTake w) s = .next t ∧ t.slots[w] = some u' ∧ u'.front = i ∧ u'.counter = u.counter + 1 ∧
      u'.slots[i] = some x' ∧ x'.state = .published (u.counter + 1) ∧ t.views = s.views ∧
      t.notice = s.notice.take (.published w i (u.counter + 1) c.tag) s.timebase ∧
      t.commits[w] = { queue := [], current := none, fence := false } ∧
      (∀ x g, u.slots[u.front] = some x → x.state = .published g → 0 < x.pins →
        ∃ x', u'.slots[u.front] = some x' ∧ x'.state = .published g ∧ x'.pins = x.pins) ∧
      ∀ m id e, c.trigger = some (m, id) → e ∈ s.responses[(m : Fin 16)] → e.id = id → e.stage = .held →
        e.unresolved = 1 → e.request.kind = .write → (∀ p ∈ e.pieces, p.stage ≠ .faulted) →
        ∃ e' ∈ t.responses[m], e'.id = id ∧ e'.stage = .complete ⟨.done, []⟩

/-- R46, R56, R57, R60, R96, R102, R128, R131, R132: the other outcomes of a take, no write being fenced: a PUBLISH is
discarded NO_SLOT, EMPTY or INCOMPLETE with its missing count, or seals a slot with blocks left to copy; an ABANDON is
discarded NO_SLOT, or discards the FILLING slot, which becomes RETIRING, or FREE with an allocation of the
lowest-numbered FREE slot after it; in a rolling window the origin and the serial advance, the lags of the PINNED views
rise, and those that reach the staging count are counted as seeing. The head of the queue of a LIVE window then begins,
and with a drain count of 0 is taken at once. Every write in a fence wait is classified afresh against the window as
the take left it: mapped, in a slot wait, or answered DENIED in a DRAINING window. -/
def Obligations.CommitTakeOutcomes : Prop :=
  (∀ (w : Fin 16) (c : Commit) (d : Definition) (s : State),
    s.commits[w].current = some ⟨c, 0⟩ → s.noneFenced w → s.windows[w].state ≠ .draining → s.definition w = some d →
    let ended (taken : Bool) (t : State) : Host.Outcome State Fault Refusal := State.afterTake (releaseTrigger c.trigger
      taken { t with commits := s.commits.set w { queue := s.commits[w].queue, current := none, fence := false } }) w
    let discarded (reason : Reason) (missing : Nat) : Host.Outcome State Fault Refusal :=
      ended false { s with notice := s.notice.take (.commitDiscarded w reason c.master missing) s.timebase }
    (∀ u, s.slots[w] = some u → u.filling = none →
      exec (.commitTake w) s = discarded .noSlot 0) ∧
    (∀ u i k, s.slots[w] = some u → u.filling = some i → s.work w i = some k → c.action = .publish →
      (k.written = 0 → exec (.commitTake w) s = discarded .empty 0) ∧
      (k.written ≠ 0 → d.requiresFull = true → k.written < d.units →
        exec (.commitTake w) s = discarded .incomplete (d.units - k.written)) ∧
      (k.written ≠ 0 → (d.requiresFull = true → d.units ≤ k.written) →
        (∃ b : Nat, k.map[b]? = some BlockState.needsCopy ∨ k.map[b]? = some BlockState.copying) → u.sealed = none →
        (s.slot w i).map Slot.state = some (.filling k) →
        exec (.commitTake w) s = ended true (s.onSlots w (fun u =>
          { u with filling := none, sealed := some i }.onSlot i (fun x => { x with state := .sealed k c.tag }))))) ∧
    (∀ u i k x n z, s.slots[w] = some u → u.filling = some i → u.sealed = none → s.work w i = some k →
      u.slots[i] = some x → x.inFlight = 0 → x.waiting = 0 → (∀ f, k.source = some f → f = u.front) →
      c.action = .abandon → s.commits[w].queue = [] → s.windows[w].state = .live → u.slots[n] = some z →
      (n = i ∨ z.state = .free) → (∀ j < n, j ≠ i ∧ ∀ y, u.slots[j] = some y → y.state ≠ .free) → u.front ≠ n →
      u.front ≠ i →
      ∃ t u' z' k', exec (.commitTake w) s = .next t ∧ t.slots[w] = some u' ∧ u'.front = u.front ∧
        u'.counter = u.counter ∧ u'.filling = some n ∧ u'.slots[n] = some z' ∧ z'.state = .filling k' ∧
        k'.written = 0 ∧ k'.map.length = d.units ∧
        k'.source = (if d.isBackfill = true then some u.front else none) ∧
        (n ≠ i → ∃ x', u'.slots[i] = some x' ∧ x'.state = .free) ∧
        (s.link.part = .running → d.isBackfill = true → t.copier.jobs[w] = some n) ∧
        t.notice = s.notice.take (.abandoned w i) s.timebase ∧
        t.commits[w] = { queue := [], current := none, fence := false }) ∧
    (∀ u i k x, s.slots[w] = some u → u.filling = some i → s.work w i = some k → u.slots[i] = some x →
      x.inFlight ≠ 0 → c.action = .abandon → s.commits[w].queue = [] →
      ∃ t u' x', exec (.commitTake w) s = .next t ∧ t.slots[w] = some u' ∧ u'.front = u.front ∧
        u'.counter = u.counter ∧ u'.filling ≠ some i ∧ u'.slots[i] = some x' ∧ x'.state = .retiring ∧
        t.notice = s.notice.take (.abandoned w i) s.timebase ∧
        t.commits[w] = { queue := [], current := none, fence := false }) ∧
    ∀ u, s.slots[w] = none → s.rolls[w] = some u →
      exec (.commitTake w) s = ended true { s with
        rolls := s.rolls.set w (some { u with
          origin := (u.origin + 1) % d.ring
          serial := u.serial + 1
          seeing := u.seeing + consumerNumbers.countP (fun c => (s.view w c).any (fun v =>
            match v.state with
            | .pinnedOrigin _ lag => decide (lag + 1 = d.staging)
            | _ => false)) })
        views := s.views.set w (s.views[w].map (Option.map (fun v => { v with state :=
          match v.state with
          | .pinnedOrigin x lag => .pinnedOrigin x (if lag < 255 then lag + 1 else 255)
          | x => x })))
        notice := s.notice.take (.advanced w (u.serial + 1) c.tag) s.timebase }) ∧
  ∀ (w : Fin 16) (c : Commit) (d : Definition) (s : State), s.oneWaiting →
    s.commits[w] = { queue := [], current := some ⟨c, 0⟩, fence := true } → s.definition w = some d →
    ∃ t, exec (.commitTake w) s = .next t ∧ t.commits[w] = { queue := [], current := none, fence := false } ∧
      ∀ m e, s.current m = some e → e.fencedAt w = true → e.request.kind = .write →
        (s.windows[w].state = .draining →
          ∃ x ∈ t.responses[m], x.id = e.id ∧ x.stage = .complete ⟨.denied, []⟩) ∧
        (s.windows[w].state = .live →
          (∀ u, s.slots[w] = none → t.rolls[w] = some u →
            ∃ x, t.current m = some x ∧ x.id = e.id ∧ x.stage = .waiting .mapped ∧
              x.pieces.map (fun p => (p.phys, p.target)) = (cut d e.request).map (fun p =>
                let p := mapToLine d ((u.origin + 1) % d.ring) false p
                (p.phys, p.target))) ∧
          ∀ u, t.slots[w] = some u →
            (∀ i k, u.filling = some i → t.work w i = some k →
              ∃ x, t.current m = some x ∧ x.id = e.id ∧ x.stage = .waiting .mapped ∧
                x.pieces.map (fun p => (p.phys, p.target)) =
                  (cut d e.request).map (fun p => ((mapToSlot d i p).phys, .slot i))) ∧
            (u.filling = none →
              ∃ x, t.current m = some x ∧ x.id = e.id ∧ x.stage = .waiting (.slot (decide (u.sealed = none))) ∧
                (u.sealed = none → t.stallTimers[m] = some ⟨s.timebase, d.limit⟩)))

/-- R40, R41: DRAIN WINDOW makes a LIVE or HALTED window DRAINING, discards its queued commits and answers its writes
in a slot wait; the drain completes, at its take or later, when nothing of the window is left, and then the window is
DEFINED, its working state removed, and WINDOW_DRAINED posted. While something is left, or the part is RESETTING, it
does not. That the drain of a window already drained completes with the command is the model's choice (log 11). -/
def Obligations.DrainCompletes : Prop :=
  ∀ (w : Fin 16) (s : State),
    (s.link.part = .running → s.windows[w].state = .draining → s.nothingLeft w →
      exec (.drainCompletion w) s = .next
        { s.emptied w with notice := s.notice.take (.windowDrained w) s.timebase }) ∧
    (s.link.part = .resetting ∨ s.windows[w].state ≠ .draining ∨ s.windows[w].inFlight ≠ 0 ∨
        s.windows[w].waiting ≠ 0 ∨ s.commits[w].current ≠ none ∨ s.commits[w].queue ≠ [] ∨
        (∃ u ∈ s.copier.urgent, u.window = w) ∨ isCandidate s w = true ∨
        (∃ y, s.copier.copy = some y ∧ y.window = w) →
      exec (.drainCompletion w) s = .next s) ∧
    (s.linkReady → (s.windows[w].state = .live ∨ s.windows[w].state = .halted) →
      ((∀ u, s.slots[w] = some u → u.filling = none) → s.noneInSlotWait w → s.nothingLeft w →
        exec (.drainWindow [byteOf w]) s = .next { s.emptied w with
          notice := s.notice.take (.windowDrained w) s.timebase
          link := s.link.recorded 0x05 .accepted 0 }) ∧
      (s.commits[w].queue = [] → s.noneInSlotWait w →
        (s.commits[w].current ≠ none ∨
          ((∀ u, s.slots[w] = some u → u.filling = none) ∧
            (s.windows[w].inFlight ≠ 0 ∨ s.windows[w].waiting ≠ 0))) →
        exec (.drainWindow [byteOf w]) s = .next { s with
          windows := s.windows.set w { s.windows[w] with state := .draining, haltCause := none }
          link := s.link.recorded 0x05 .accepted 0 }) ∧
      (s.oneWaiting → ∃ t, exec (.drainWindow [byteOf w]) s = .next t ∧
        (t.windows[w].state = .draining ∨ t.windows[w].state = .defined) ∧ t.commits[w].queue = [] ∧
        ∀ m e, t.current m = some e → e.window = some w → e.request.kind = .write → e.reachable = true →
          e.inSlotWait = false))

/-- R163, R164, R165, with R65, R88, R122, R135 and R149 for the blocks' parts: SOFT RESET, with a piece of a window in
flight, leaves the part RESETTING with no commit, no copier job, no window request waiting within reach, the holdoff
timer, every idle timer and the stall timer of every request answered stopped, and no stall timer started (a write in
a slot wait is unmapped, without a piece: R65). The clearing comes when the three conditions hold together, and not
before, and leaves every window that had working state DEFINED, the ring empty with RESET_DONE posted, and the part
RUNNING. Where they hold already at the take of SOFT RESET, it clears within that take (R164). That the clearing comes
inside the step that brings the conditions together is the model's choice (log 11). -/
def Obligations.SoftResetRunsToClearing : Prop :=
  (∀ (w : Fin 16) (s : State), s.linkReady → s.oneWaiting → s.windows[w].state.working = true →
    s.windows[w].inFlight ≠ 0 →
    (∀ w : Fin 16, s.windows[w].state.working = true → (s.definition w).isSome = true) →
    (∀ m e, s.current m = some e → e.inSlotWait = true → e.pieces = []) →
    ∃ t, exec (.softReset []) s = .next t ∧
      t.link = { s.link.recorded 0x0F .accepted 0 with part := .resetting } ∧
      (∀ w : Fin 16, t.windows[w].state = s.windows[w].state ∧
        t.commits[w] = { queue := [], current := none, fence := false } ∧ t.copier.jobs[w] = none) ∧
      t.copier.urgent = [] ∧ (∀ y, t.copier.copy = some y → y.dropped = true) ∧ t.notice.holdoff = .stopped ∧
      (∀ w c, t.view w c = (s.view w c).map (fun v => { v with timer := none })) ∧
      (∀ m e w, t.current m = some e → e.window = some w → s.windows[(w : Fin 16)].state.working = true →
        e.reachable = false) ∧
      (∀ m e w, s.current m = some e → e.window = some w → s.windows[(w : Fin 16)].state.working = true →
        e.reachable = true → t.stallTimers[m] = none) ∧
      ∀ m : Fin 16, t.stallTimers[m] = none ∨ t.stallTimers[m] = s.stallTimers[m]) ∧
  (∀ s : State, s.link.part = .running ∨ s.copier.copy ≠ none ∨ s.notice.inFlight ≠ none ∨
      (∃ w : Fin 16, s.windows[w].state.working = true ∧ (s.windows[w].inFlight ≠ 0 ∨ s.windows[w].waiting ≠ 0)) →
    exec .softResetClearing s = .next s) ∧
  (∀ s : State, s.link.part = .resetting → s.copier.copy = none → s.notice.inFlight = none →
    (∀ w : Fin 16, s.windows[w].state.working = true → s.windows[w].inFlight = 0 ∧ s.windows[w].waiting = 0) →
    ∃ t, exec .softResetClearing s = .next t ∧ t.link = { s.link with part := .running } ∧ s.cleared t ∧
      (∀ w : Fin 16, s.windows[w].state.working = false → t.windows[w] = s.windows[w]) ∧ t.responses = s.responses) ∧
  ∀ s : State, s.linkReady → s.copier.copy = none → s.notice.inFlight = none →
    (∀ w : Fin 16, s.windows[w].state.working = true → s.windows[w].inFlight = 0 ∧ s.windows[w].waiting = 0) →
    ∃ t, exec (.softReset []) s = .next t ∧ t.link = s.link.recorded 0x0F .accepted 0 ∧
      State.cleared { s with notice := { s.notice with holdoff := .stopped } } t ∧ t.copier.urgent = [] ∧
      (∀ w : Fin 16, t.commits[w] = { queue := [], current := none, fence := false } ∧ t.copier.jobs[w] = none) ∧
      (∀ w : Fin 16, s.windows[w].state.working = false → t.windows[w].state = s.windows[w].state ∧
        t.definition w = s.definition w) ∧
      ∀ m : Fin 16, t.stallTimers[m] = none ∨ t.stallTimers[m] = s.stallTimers[m]

/-! ## The write commands of the link -/

/-- R25 to R31, R156, R160, R167, R169, R170: DEFINE WINDOW with the bytes of a definition whose fields lie in their
ranges, and that the relational checks admit, makes the window DEFINED with exactly that definition: a stall limit
given as 0 is taken as 1000 (R25), and every byte but 0 is halt on fault = yes (R167). READ WINDOW DEFINITION then
captures the definition's bytes: the bytes given, but for a stall limit of 0, now 1000, and halt on fault = yes, which
it captures as 0x01 whichever byte gave it (the model's choice: log 24). -/
def Obligations.DefineWindowStoresDefinition : Prop :=
  ∀ (w : Fin 16) (d : Definition) (bytes : List Byte) (s : State), s.linkReady →
    (s.windows[w].state = .undefined ∨ s.windows[w].state = .defined) → d.wf → d.fits w s → d.givenBy bytes →
    let t : State := { s with
      windows := s.windows.set w { s.windows[w] with state := .defined, definition := some d }
      link := s.link.recorded 0x01 .accepted 0 }
    exec (.defineWindow (byteOf w :: bytes)) s = .next t ∧
    exec (.readWindowDefinition [byteOf w]) t = .next { t with
      link := t.link.captured [0x81, byteOf w]
        (1 :: definitionBytes d ++ List.replicate (44 - (definitionBytes d).length) 0) }

/-- R34, R45, R46, R71, R74, R76, R90, R109, R123: ENABLE WINDOW makes a DEFINED window LIVE with fresh state: an empty
commit unit, an UNPINNED view for each consumer of its set, and either origin 0, or the initial front PUBLISHED with
generation 0 and the lowest-numbered other slot FILLING, with a backfill job and source hold on the front under
BACKFILL, the copier being busy with another copy or, having no other work, starting the copy of block 0 at once (the
model's choice: log 6). -/
def Obligations.EnableWindowTaken : Prop :=
  ∀ (w : Fin 16) (f : Fin 4) (d : Definition) (s : State), s.linkReady → s.windows[w].state = .defined →
    s.definition w = some d → d.wf → d.fits w s →
    (∀ c : Fin 8, d.consumers.getLsbD c.val = true → s.consumers[c].isSome = true) →
    (d.trigger = .commitWord → d.word ≠ none) → s.noneInSlotWait w →
    let live : State := { s with
      windows := s.windows.set w
        { state := .live, definition := some d, inFlight := 0, waiting := 0, haltCause := none }
      commits := s.commits.set w { queue := [], current := none, fence := false }
      views := s.views.set w (Vector.ofFn (fun c => if d.consumers.getLsbD c.val = true
        then some { state := .unpinned, frames := 0, mark := none, timer := none } else none))
      link := s.link.recorded 0x04 .accepted 0 }
    (∀ top visible staging bottom base, d.geometry = .rolling top visible staging bottom base →
      exec (.enableWindow [byteOf w, byteOf f]) s = .next { live with
        rolls := s.rolls.set w (some
          { origin := 0, serial := 0, seeing := 0, reads := List.replicate (visible + staging) 0 }) }) ∧
    ∀ blocks coverage bases, d.geometry = .slotted blocks coverage bases → f.val < bases.length →
      let i : Fin 4 := if f = 0 then 1 else 0
      let unit (work : Work) (hold : Bool) : SlotUnit :=
        { slots := Vector.ofFn (fun j => if bases.length ≤ j.val then none else some
            { state := if j = f then .published 0 else if j = i then .filling work else .free
              pins := 0, inFlight := 0, waiting := 0, hold := decide (j = f) && hold })
          counter := 0, front := f, filling := some i, sealed := none }
      (coverage ≠ .backfill → exec (.enableWindow [byteOf w, byteOf f]) s = .next { live with
        slots := s.slots.set w (some
          (unit { map := List.replicate blocks .notWritten, written := 0, source := none } false)) }) ∧
      (coverage = .backfill → s.copier.copy.isSome = true →
        exec (.enableWindow [byteOf w, byteOf f]) s = .next { live with
          slots := s.slots.set w (some
            (unit { map := List.replicate blocks .needsCopy, written := 0, source := some f } true))
          copier := { s.copier with jobs := s.copier.jobs.set w (some i) } }) ∧
      (coverage = .backfill → s.copier.copy = none → s.copier.urgent = [] →
        (∀ w', w' ≠ w → isCandidate s w' = false) →
        exec (.enableWindow [byteOf w, byteOf f]) s = .next { live with
          slots := s.slots.set w (some (unit
            { map := (List.replicate blocks .needsCopy).set 0 .copying, written := 0, source := some f } true))
          copier := { s.copier with
            jobs := s.copier.jobs.set w (some i)
            pointer := w
            copy := some
              { window := w, source := f, dest := i, block := 0, attempt := .first, failed := false,
                dropped := false, next := 0, written := 0 } } })

/-- R32, R35, R39, R46, R156: UNDEFINE WINDOW, SET COMMIT WORD with a word that overlaps nothing or with none, and
SET STALL LIMIT change the definition alone; RESUME WINDOW makes a HALTED window LIVE and opens its lowest-numbered
FREE slot, where it has one. -/
def Obligations.WindowTableCommandsTaken : Prop :=
  ∀ (w : Fin 16) (d : Definition) (s : State), s.linkReady → s.definition w = some d →
    let changed (code : Byte) (x : Window) : State :=
      { s with windows := s.windows.set w x, link := s.link.recorded code .accepted 0 }
    (s.windows[w].state = .defined →
      exec (.undefineWindow [byteOf w]) s =
        .next (changed 0x03 { s.windows[w] with state := .undefined, definition := none }) ∧
      exec (.setCommitWord (byteOf w :: List.replicate 5 0xFF)) s =
        .next (changed 0x02 { s.windows[w] with definition := some { d with word := none } }) ∧
      ∀ a : Addr, a.toNat % 8 = 0 →
        (∀ g ∈ s.windowRegions (some w) ++ s.ringRegions ++ ({ d with word := none }).regions.map Prod.snd,
          touches (wordRegion a) g = false) →
        exec (.setCommitWord (byteOf w :: leBytes 5 a.toNat)) s =
          .next (changed 0x02 { s.windows[w] with definition := some { d with word := some a } })) ∧
    (s.windows[w].state = .defined ∨ s.windows[w].state = .live ∨ s.windows[w].state = .halted →
      ∀ n, 1 ≤ n → n ≤ 65535 → exec (.setStallLimit (byteOf w :: leBytes 2 n)) s =
        .next (changed 0x07 { s.windows[w] with definition := some { d with limit := n } })) ∧
    (s.windows[w].state = .halted →
      ((∀ u, s.slots[w] = some u → ∀ (i : Fin 4) x, u.slots[i] = some x → x.state ≠ .free) →
        exec (.resumeWindow [byteOf w]) s =
          .next (changed 0x06 { s.windows[w] with state := .live, haltCause := none })) ∧
      ∀ u i x, s.slots[w] = some u → u.filling = none → u.sealed = none → u.slots[(i : Fin 4)] = some x →
        x.state = .free → (∀ j < i, ∀ y, u.slots[j] = some y → y.state ≠ .free) → d.isBackfill = false →
        s.noneInSlotWait w →
        exec (.resumeWindow [byteOf w]) s =
          .next ((changed 0x06 { s.windows[w] with state := .live, haltCause := none }).onSlots w (fun u =>
            { u with filling := some i }.onSlot i (fun x => { x with
              state := .filling { map := List.replicate d.units .notWritten, written := 0, source := none } }))))

/-- R126, R127, R128, R157: PUBLISH and, for a slotted window, ABANDON of a LIVE window create a commit with no
master and no trigger: it is discarded QUEUE_FULL by a full queue, joins the queue behind another commit, or begins,
the fence raised and its drain set fixed; with a drain count of 0 it is then taken in the same take. -/
def Obligations.LinkCommitsArrive : Prop :=
  ∀ (w : Fin 16) (tag : BitVec 16) (d : Definition) (s : State), s.linkReady → s.windows[w].state = .live →
    s.definition w = some d →
    ∀ c code commit, (c = Instr.publish (byteOf w :: leBytes 2 tag.toNat) ∧ code = 0x08 ∧
        commit = { action := .publish, tag := tag, master := none, trigger := none }) ∨
      (c = Instr.abandon [byteOf w] ∧ d.isSlotted = true ∧ code = 0x09 ∧
        commit = { action := .abandon, tag := 0, master := none, trigger := none }) →
      (4 ≤ s.commits[w].queue.length → exec c s = .next { s with
        notice := s.notice.take (.commitDiscarded w .queueFull none 0) s.timebase
        link := s.link.recorded code .accepted 0 }) ∧
      (s.commits[w].queue.length < 4 → (s.commits[w].current.isSome = true ∨ s.commits[w].queue ≠ []) →
        exec c s = .next { s with
          commits := s.commits.set w { s.commits[w] with queue := s.commits[w].queue ++ [commit] }
          link := s.link.recorded code .accepted 0 }) ∧
      (s.commits[w].queue = [] → s.commits[w].current = none →
        ∃ t, s.begins w [] commit = .next t ∧ exec c s = .next { t with link := s.link.recorded code .accepted 0 })

/-- R107, R158: BIND CONSUMER replaces the whole binding of a consumer of no LIVE, HALTED or DRAINING window, the
master being bound to no other consumer and a producer of no window with the consumer in its set; UNBIND CONSUMER
removes it. -/
def Obligations.ConsumerBindingsTaken : Prop :=
  ∀ (c : Fin 8) (s : State), s.linkReady →
    (∀ w d, s.windows[(w : Fin 16)].state.working = true → s.definition w = some d →
      d.consumers.getLsbD c.val = false) →
    exec (.unbindConsumer [byteOf c]) s = .next { s with
      consumers := s.consumers.set c none, link := s.link.recorded 0x0B .accepted 0 } ∧
    ∀ (m : Fin 16) (source : FrameSource) (idle : Nat), idle ≤ 65535 →
      (∀ (c' : Fin 8) b, c' ≠ c → s.consumers[c'] = some b → b.master ≠ m) →
      (∀ w d, s.windows[(w : Fin 16)].state ≠ .undefined → s.definition w = some d →
        d.producers.getLsbD m.val = true → d.consumers.getLsbD c.val = false) →
      exec (.bindConsumer ([byteOf c, byteOf m, match source with
          | .line => 1
          | .firstBlock => 2] ++ leBytes 2 idle)) s = .next { s with
        consumers := s.consumers.set c (some ⟨m, source, idle⟩), link := s.link.recorded 0x0A .accepted 0 }

/-- R137, R140, R144, R159, R169: SET NOTICE RING with a definition whose fields and regions the checks admit, a
threshold given as 0 taken as 4 and a holdoff given as DEFAULT as 100 µs, makes the ring ACTIVE with its indices 0, an
initial write-back owed and the pending queue kept; with none it makes it UNSET and empties the queue; a notice write
in flight is marked stale either way. SET NOTICE MASK replaces the mask, and
FLUSH NOTICES raises a flush request in an ACTIVE ring. -/
def Obligations.NoticeRingCommandsTaken : Prop :=
  ∀ s : State, s.linkReady →
    let set (d : Option RingDef) (ring : RingState) (pending : List Notice) : State := { s with
      notice := { s.notice with
        ring := ring, definition := d, write := 0, consumed := 0, writtenBack := 0, sequence := 0, lost := 0
        pending := pending, indexError := false, holdoff := .stopped, flush := false, owed := d.isSome
        inFlight := s.notice.inFlight.map (fun f => { write := f.write, stale := true }), attn := false }
      link := s.link.recorded 0x0C .accepted 0 }
    (∀ (d : RingDef) (params : List Byte), d.wf → d.givenBy params →
      (d.regions.map Prod.snd).Pairwise (fun a b => touches a b = false) →
      (∀ a ∈ d.regions.map Prod.snd, ∀ b ∈ s.windowRegions none, touches a b = false) →
      exec (.setNoticeRing params) s = .next (set (some d) .active s.notice.pending)) ∧
    (∀ a b : List Byte, a.length = 5 → b.length = 14 →
      exec (.setNoticeRing (a ++ [0, 0] ++ b)) s = .next (set none .unset [])) ∧
    (∀ mask : BitVec 16, exec (.setNoticeMask (leBytes 2 mask.toNat)) s = .next { s with
      notice := { s.notice with mask := mask }, link := s.link.recorded 0x0D .accepted 0 }) ∧
    (s.notice.ring = .active → exec (.flushNotices []) s = .next { s with
      notice := { s.notice with flush := true }, link := s.link.recorded 0x0E .accepted 0 })

/-- R28 to R35, R39, R40, R107, R137, R153 to R157, R159: a refused write command changes nothing but the result
record: REFUSED_FRAME for a wrong length or an unknown code, REFUSED_BUSY while the part is RESETTING, REFUSED_PARAM
index 1 for a window above 15, and REFUSED_STATE for a window, a consumer or a ring in a state in which the command is
not taken; and REFUSED_PARAM with the index of the first check that fails, of DEFINE WINDOW (its order where counts and
a region's end both fail is the model's: log 17), ENABLE WINDOW, SET COMMIT WORD, SET STALL LIMIT, ABANDON, BIND
CONSUMER, UNBIND CONSUMER and SET NOTICE RING (which of its overlapping pairs of regions counts, where there are more
than one, is the model's choice: log 27). -/
def Obligations.RefusedCommandsChangeOnlyResult : Prop :=
  ∀ (params : List Byte) (s : State), s.link.awaitRise = false →
    let refused (code : Byte) (result : Result) (index : Nat) : State :=
      { s with link := s.link.recorded code result index }
    (∀ x ∈ fixedLengthCommands params, params.length + 1 ≠ x.2.2 →
      exec x.1 s = .next (refused x.2.1 .refusedFrame 0)) ∧
    (∀ x ∈ fixedLengthCommands params, params.length + 1 = x.2.2 → s.link.part = .resetting →
      exec x.1 s = .next (refused x.2.1 .refusedBusy 0)) ∧
    (∀ code, namesCommand code = false →
      exec (.unknownCommandFrame code params) s = .next (refused code .refusedFrame 0)) ∧
    (params.length < 2 ∨ (params[1]? = some 2 ∧ params.length ≠ 31) ∨ (params[1]? = some 1 ∧ params.length < 24) ∨
        (∃ n, params[1]? = some 1 ∧ params[23]? = some (BitVec.ofNat 8 n) ∧ 2 ≤ n ∧ n ≤ 4 ∧
          params.length ≠ 25 + 5 * n) →
      exec (.defineWindow params) s = .next (refused 0x01 .refusedFrame 0)) ∧
    (∀ b rest, params = b :: rest → s.link.part = .running → 16 ≤ b.toNat →
      (∀ x ∈ fixedLengthCommands params, params.length + 1 = x.2.2 →
        x.2.1 ∈ [(0x02 : Byte), 0x03, 0x04, 0x05, 0x06, 0x07, 0x08, 0x09] →
        exec x.1 s = .next (refused x.2.1 .refusedParam 1))) ∧
    (∀ (w : Fin 16) rest, params = byteOf w :: rest → s.link.part = .running →
      (∀ x ∈ fixedLengthCommands params, params.length + 1 = x.2.2 →
        (x.2.1 ∈ [(0x02 : Byte), 0x03, 0x04] ∧ s.windows[w].state ≠ .defined) ∨
        (x.2.1 = 0x05 ∧ s.windows[w].state ≠ .live ∧ s.windows[w].state ≠ .halted) ∨
        (x.2.1 = 0x06 ∧ s.windows[w].state ≠ .halted) ∨
        (x.2.1 = 0x07 ∧ (s.windows[w].state = .undefined ∨ s.windows[w].state = .draining)) ∨
        (x.2.1 ∈ [(0x08 : Byte), 0x09] ∧ s.windows[w].state ≠ .live) →
        exec x.1 s = .next (refused x.2.1 .refusedState 0)) ∧
      (defineLengthOk (0x01 :: params) = true → s.windows[w].state.working = true →
        exec (.defineWindow params) s = .next (refused 0x01 .refusedState 0))) ∧
    (defineLengthOk (0x01 :: params) = true →
      (s.link.part = .resetting → exec (.defineWindow params) s = .next (refused 0x01 .refusedBusy 0)) ∧
      (s.link.part = .running →
        (∀ b rest, params = b :: rest → 16 ≤ b.toNat →
          exec (.defineWindow params) s = .next (refused 0x01 .refusedParam 1)) ∧
        ∀ (w : Fin 16) rest i, params = byteOf w :: rest → s.windows[w].state.working = false →
          FirstBreach (defineChecks (0x01 :: params)) i →
          exec (.defineWindow params) s = .next (refused 0x01 .refusedParam i))) ∧
    (s.link.part = .running →
      (∀ (w : Fin 16) d i, s.windows[w].state.working = false → d.wf → FirstBreach (relationalChecks w d s) i →
        exec (.defineWindow (byteOf w :: definitionBytes d)) s = .next (refused 0x01 .refusedParam i)) ∧
      (∀ (w : Fin 16) (front : Byte) d i, s.windows[w].state = .defined → s.definition w = some d → d.wf →
        FirstBreach (enableChecks w d front.toNat s) i →
        exec (.enableWindow [byteOf w, front]) s = .next (refused 0x04 .refusedParam i)) ∧
      (∀ (w : Fin 16) d (a : Addr), s.windows[w].state = .defined → s.definition w = some d → a ≠ BitVec.allOnes 40 →
        (a.toNat % 8 ≠ 0 ∨
          ∃ g ∈ s.windowRegions (some w) ++ s.ringRegions ++ ({ d with word := none }).regions.map Prod.snd,
            touches (wordRegion a) g = true) →
        exec (.setCommitWord (byteOf w :: leBytes 5 a.toNat)) s = .next (refused 0x02 .refusedParam 2)) ∧
      (∀ w : Fin 16, (s.windows[w].state = .defined ∨ s.windows[w].state = .live ∨ s.windows[w].state = .halted) →
        exec (.setStallLimit [byteOf w, 0, 0]) s = .next (refused 0x07 .refusedParam 2)) ∧
      (∀ (w : Fin 16) d, s.windows[w].state = .live → s.definition w = some d → d.isSlotted = false →
        exec (.abandon [byteOf w]) s = .next (refused 0x09 .refusedParam 1)) ∧
      (∀ (c m source lo hi : Byte),
        (8 ≤ c.toNat → exec (.bindConsumer [c, m, source, lo, hi]) s = .next (refused 0x0A .refusedParam 1) ∧
          exec (.unbindConsumer [c]) s = .next (refused 0x0B .refusedParam 1)) ∧
        ∀ k : Fin 8, c = byteOf k →
          let inUse := ∃ w d, s.windows[(w : Fin 16)].state.working = true ∧ s.definition w = some d ∧
            d.consumers.getLsbD k.val = true
          (inUse → exec (.bindConsumer [c, m, source, lo, hi]) s = .next (refused 0x0A .refusedState 0) ∧
            exec (.unbindConsumer [c]) s = .next (refused 0x0B .refusedState 0)) ∧
          ∀ i, ¬ inUse → FirstBreach (bindChecks k m.toNat source.toNat s) i →
            exec (.bindConsumer [c, m, source, lo, hi]) s = .next (refused 0x0A .refusedParam i)) ∧
      (∀ i, params.length = 21 → field (0x0C :: params) 6 2 ≠ 0 → FirstBreach (ringChecks (0x0C :: params)) i →
        exec (.setNoticeRing params) s = .next (refused 0x0C .refusedParam i)) ∧
      (∀ (d : RingDef) i, d.wf →
        FirstBreach (overlapChecks [] d.regions ++
          d.regions.map (fun x => (∀ g ∈ s.windowRegions none, touches x.2 g = false, x.1))) i →
        exec (.setNoticeRing (ringBytes d)) s = .next (refused 0x0C .refusedParam i)) ∧
      (s.notice.ring ≠ .active → exec (.flushNotices []) s = .next (refused 0x0E .refusedState 0)))

/-! ## The read commands of the link -/

/-- R151, R152, R160, R161, R170: each read command but READ RING STATUS, whose capture IndexErrorRecordsIgnoredStores
(O34) states, captures its record, every byte 0xFF for a selector outside its
range, and changes nothing else: not the result record, whatever the part state; the frame goes on, SDO to carry the
dummy byte 0x00 and then the record (R151). With fewer selector bytes it is a frame that ended before its take,
without effect. The bytes of every record are written out, but for a window definition's fields, which are those of
DEFINE WINDOW (with halt on fault = yes as 0x01: log 24). -/
def Obligations.ReadCommandsCapture : Prop :=
  ∀ s : State, s.link.awaitRise = false →
    let captured (frame record : List Byte) : State := { s with link := s.link.captured frame record }
    (∀ (w : Fin 16) (rest : List Byte),
      let codes : List Byte :=
        [match s.windows[w].state with
          | .undefined => 0
          | .defined => 1
          | .live => 2
          | .halted => 3
          | .draining => 4,
         match s.windows[w].state, (s.definition w).map Definition.isSlotted with
          | .undefined, _ | _, none => 0
          | _, some true => 1
          | _, some false => 2,
         match s.windows[w].state, s.windows[w].haltCause with
          | .halted, some .memfault => 1
          | .halted, some .backfillFailed => 2
          | _, _ => 0,
         match s.windows[w].state with
          | .undefined | .defined => 0
          | .live | .halted | .draining => BitVec.ofNat 8 s.windows[w].waiting,
         BitVec.ofNat 8 s.commits[w].queue.length, if s.commits[w].current.isSome then 1 else 0]
      let slotFields : List Byte := match s.slots[w] with
        | none => [0, 0, 0, 0, 0, 0xFF, 0xFF]
        | some u => leBytes 4 u.counter.toNat ++
            [byteOf u.front, (u.filling.map byteOf).getD 0xFF, (u.sealed.map byteOf).getD 0xFF]
      let rollFields : List Byte := match (s.definition w).map Definition.geometry, s.rolls[w] with
        | some (.rolling top visible _ _ _), none => [0, 0, 0, 0, 0, BitVec.ofNat 8 (top + visible)]
        | some (.rolling top visible staging _ _), some u => [BitVec.ofNat 8 u.origin] ++ leBytes 4 u.serial.toNat ++
            [BitVec.ofNat 8 (top + (u.origin + visible) % (visible + staging))]
        | _, _ => [0, 0, 0, 0, 0, 0]
      let slotEntry (i : Fin 4) : List Byte := match s.slot w i with
        | none => List.replicate 12 0
        | some x =>
          [match x.state with
            | .free => 1
            | .filling _ => 2
            | .sealed _ _ => 3
            | .published _ => 4
            | .retiring => 5,
           BitVec.ofNat 8 x.pins, BitVec.ofNat 8 x.inFlight, BitVec.ofNat 8 x.waiting,
           match x.state with
            | .filling k | .sealed k _ => BitVec.ofNat 8 k.written
            | _ => 0,
           0, 0, 0] ++ leBytes 4 (match x.state with
            | .published g => g.toNat
            | _ => 0)
      let viewBytes : Option View → List Byte
        | none => [0, 0, 0, 0, 0, 0, 0, 0, 0, 0]
        | some v => (match v.state with
          | .unpinned => [1, 0, 0, 0, 0, 0, 0, 0]
          | .pinnedSlot i g => [2, byteOf i, 0, 0] ++ leBytes 4 g.toNat
          | .pinnedOrigin x lag => [2, 0, BitVec.ofNat 8 x, BitVec.ofNat 8 lag, 0, 0, 0, 0]
          | .torn => [3, 0, 0, 0, 0, 0, 0, 0]) ++ leBytes 2 v.frames.toNat
      exec (.readWindowDefinition (byteOf w :: rest)) s =
        .next (captured [0x81, byteOf w] (definitionRecord s w)) ∧
      exec (.readWindowStatus (byteOf w :: rest)) s =
        .next (captured [0x82, byteOf w]
          (codes ++ slotFields ++ rollFields ++ [0] ++ slotNumbers.flatMap slotEntry)) ∧
      ∀ c : Fin 8, exec (.readViewStatus (byteOf w :: byteOf c :: rest)) s =
        .next (captured [0x83, byteOf w, byteOf c] (viewBytes (s.view w c)))) ∧
    (∀ (c : Fin 8) (rest : List Byte), exec (.readConsumer (byteOf c :: rest)) s =
      .next (captured [0x84, byteOf c] (match s.consumers[c] with
        | none => [0, 0, 0, 0, 0]
        | some b => [1, byteOf b.master, if b.source = .line then 1 else 2] ++ leBytes 2 b.idle))) ∧
    (∀ (b : Byte) (rest : List Byte), 16 ≤ b.toNat →
      exec (.readWindowDefinition (b :: rest)) s = .next (captured [0x81, b] (List.replicate 45 0xFF)) ∧
      exec (.readWindowStatus (b :: rest)) s = .next (captured [0x82, b] (List.replicate 68 0xFF))) ∧
    (∀ (b : Byte) (rest : List Byte), 8 ≤ b.toNat →
      exec (.readConsumer (b :: rest)) s = .next (captured [0x84, b] (List.replicate 5 0xFF))) ∧
    (∀ (a b : Byte) (rest : List Byte), 16 ≤ a.toNat ∨ 8 ≤ b.toNat →
      exec (.readViewStatus (a :: b :: rest)) s = .next (captured [0x83, a, b] (List.replicate 10 0xFF))) ∧
    (∀ params, exec (.readPartStatus params) s = .next (captured [0x86]
      ([if s.link.part = .resetting then 1 else 0,
        BitVec.ofNat 8 (placeNumbers.countP (fun i => s.places[i].isSome)),
        if s.copier.copy.isSome then 1 else 0, if s.notice.inFlight.isSome then 1 else 0,
        BitVec.ofNat 8 (windowNumbers.countP (fun w =>
          decide (s.windows[w].inFlight ≠ 0 ∨ s.windows[w].waiting ≠ 0))), 0, 0, 0] ++
        leBytes 4 s.timebase.toNat))) ∧
    (∀ params, exec (.readResult params) s = .next (captured [0x87]
      [match s.link.result.result with
        | .accepted => 0
        | .refusedState => 1
        | .refusedParam => 2
        | .refusedBusy => 3
        | .refusedFrame => 4,
       s.link.result.lastCommand.getD 0, BitVec.ofNat 8 s.link.result.param, s.link.result.sequence])) ∧
    (∀ params, ∀ x ∈ readFrames params, params.length < x.2.2 →
      exec x.1 s = .next { s with link := { s.link with frame := none } }) ∧
    (∀ w, (windowStatusRecord s w).length = 68 ∧ (definitionRecord s w).take 1 =
      [if s.windows[(w : Fin 16)].state = .undefined ∨ s.definition w = none then 0 else 1])

/-! ## The whole machine -/

/-- R4 to R6, R17, R21, R24, R106, R136, R140, R151, R154: what only some commands may change. The intake queues:
arrival, classification and a hard reset. The response lists: only classification adds to them, only the sending of a
response and a hard reset remove. The responses sent: the sending of one. The places: only ISSUE_GRANT fills them and
moves the rotation. The bindings, the definitions, the ring definition, the mask and the result record: only write
commands of the link and a hard reset. The link frame in progress: only link commands and a hard reset (R151). A take,
a drain completion or an idle expiry of one window leaves the other windows' entries, origins, views and commits as
they are. -/
def Obligations.OnlyTheirCommandsChangeThem : Prop :=
  ∀ (c : Instr) (s t : State), exec c s = .next t →
    ((∀ m r, c ≠ .requestArrival m r) → (∀ m, c ≠ .classification m) → (∀ b, c ≠ .hardReset b) →
      t.intake = s.intake ∧ t.onBus = s.onBus) ∧
    ((∀ m, c ≠ .classification m) → (∀ m, c ≠ .responseSent m) → (∀ b, c ≠ .hardReset b) →
      ∀ m : Fin 16, t.responses[m].map (fun e => (e.id, e.request, e.window)) =
        s.responses[m].map (fun e => (e.id, e.request, e.window))) ∧
    ((∀ m, c ≠ .responseSent m) → (∀ b, c ≠ .hardReset b) → t.sent = s.sent) ∧
    (c ≠ .issueGrant → (∀ i : Fin 32, t.places[i] = s.places[i] ∨ t.places[i] = none) ∧
      ((∀ b, c ≠ .hardReset b) → t.lastGranted = s.lastGranted)) ∧
    (configures c = false → t.consumers = s.consumers ∧ (∀ w, t.definition w = s.definition w) ∧
      t.notice.definition = s.notice.definition ∧ t.notice.mask = s.notice.mask ∧ t.link.result = s.link.result) ∧
    (configures c = false → (∀ params, ∀ x ∈ readFrames params, x.1 ≠ c) → t.link.frame = s.link.frame) ∧
    ∀ w, c = .commitTake w ∨ c = .drainCompletion w ∨ (∃ k, c = .idleExpiry w k) → ∀ w' : Fin 16, w' ≠ w →
      t.windows[w'] = s.windows[w'] ∧ t.rolls[w'] = s.rolls[w'] ∧ t.views[w'] = s.views[w'] ∧
      t.commits[w'] = s.commits[w']

/-- R147: ATTN is asserted exactly while the ring is FAULTED, or ACTIVE with its written-back index differing from
its consumed index: every command keeps it so, from every state in which it is so; RESET_N deasserts it. -/
def Obligations.AttnFollowsIndices : Prop :=
  let follows (s : State) : Prop := s.notice.attn = true ↔
    s.notice.ring = .faulted ∨ (s.notice.ring = .active ∧ s.notice.writtenBack ≠ s.notice.consumed)
  (∀ (c : Instr) (s t : State), follows s → exec c s = .next t → follows t) ∧
  ∀ (b : Bool) (s t : State), exec (.hardReset b) s = .next t → t.notice.attn = false

/-- R4, R5, R6, R88, R123, R131, R139, R151: every step keeps these: intake queues of at most 8, response lists of at
most 16 with at most one WAITING entry for each master, commit queues of at most 4 with the fence up exactly while a
commit is in progress, at most 32 pending notices and a lost count of at most 255, fewer than 8 bits in the incomplete
byte of a link frame (R151), which is in progress only while the link does not wait for SSEL, and, by itself, a copier
without an urgent entry, a backfill job or a copy that is not dropped while the part is RESETTING. -/
def Obligations.ListsStayBounded : Prop :=
  (∀ s t : State, s.copierStopped → step s = .next t → t.copierStopped) ∧
  ∀ s t : State, s.bounded → s.oneWaiting → s.notice.pending.length ≤ 32 → s.notice.lost ≤ 255 →
    step s = .next t →
    t.bounded ∧ t.oneWaiting ∧ t.notice.pending.length ≤ 32 ∧ t.notice.lost ≤ 255

/-- R30: every step keeps the guarded regions apart: no two of them share a byte. -/
def Obligations.GuardedRegionsStayApart : Prop :=
  ∀ s t : State, s.regionsApart → (s.notice.ring = .unset → s.notice.definition = none) → step s = .next t →
    t.regionsApart ∧ (t.notice.ring = .unset → t.notice.definition = none)

/-- R136, R138: every step keeps the ring's indices within its entries, and its definition present exactly while it
is ACTIVE or FAULTED. -/
def Obligations.RingIndicesStayInRange : Prop :=
  ∀ s t : State, s.notice.indexed → step s = .next t → t.notice.indexed

/-- The state after reset meets every invariant of the statements above. -/
def Obligations.ResetMeetsInvariants : Prop :=
  State.reset.bounded ∧ State.reset.oneWaiting ∧ State.reset.notice.pending.length ≤ 32 ∧
  State.reset.notice.lost ≤ 255 ∧ State.reset.copierStopped ∧ State.reset.regionsApart ∧ State.reset.notice.indexed ∧
  State.reset.notice.reporting
end

