-- ==== Sys2Proof/Laws/LinkPins.lean ====
section
/-! SUPPORT. What an edge on the link's pins can do, said once (`takeEdge_cases`), and how a byte is clocked in bit by bit
(`steps_byte`). -/

namespace Sys2Proof.Machine

/-! ### The frame assembler -/

theorem Frame.shiftIn_bits (b : Bool) (f : Frame) : (f.shiftIn b).bits.length < 8 := by
  unfold Frame.shiftIn
  split
  · simp only [List.length_append, List.length_singleton]; omega
  · simp

@[simp] theorem Frame.shiftOut_bits (f : Frame) : f.shiftOut.bits = f.bits := rfl
@[simp] theorem Frame.shiftOut_bytes (f : Frame) : f.shiftOut.bytes = f.bytes := rfl
@[simp] theorem Frame.shiftOut_out (f : Frame) : f.shiftOut.out = f.out := rfl

/-- A bit in that leaves the byte incomplete, and the bit out that follows, of a frame that has nothing to send. -/
theorem Frame.shift_bit (bytes : List Byte) {bits : List Bool} (b sdo : Bool) (h : bits.length < 7) :
    (Frame.shiftIn b ⟨bytes, bits, [], sdo⟩).shiftOut = ⟨bytes, bits ++ [b], [], false⟩ := by
  simp [Frame.shiftIn, Frame.shiftOut, h]

/-- The eighth bit in completes the byte. -/
theorem Frame.shift_last (bytes : List Byte) {bits : List Bool} (out : List Byte) (b sdo : Bool) (h : bits.length = 7) :
    Frame.shiftIn b ⟨bytes, bits, out, sdo⟩ = ⟨bytes ++ [byteOfBits (bits ++ [b])], [], out.tail, sdo⟩ := by
  simp [Frame.shiftIn, h]

set_option maxRecDepth 4000 in
/-- The eight bits of a byte, most significant first, make that byte. -/
theorem byteOfBits_getMsbD (b : Byte) : byteOfBits ((List.range 8).map b.getMsbD) = b := by
  have h : ∀ n : Fin 256, byteOfBits ((List.range 8).map (BitVec.ofFin (w := 8) n).getMsbD) = BitVec.ofFin n := by decide
  exact h b.toFin

/-! ### The commands of a frame -/

theorem readCommands_lookup {params : List Byte} {x : Instr × Byte × Nat} (h : x ∈ readFrames params) :
    ∃ f, readCommands.lookup x.2.1 = some (x.2.2, f) ∧ f params = x.1 := by
  simp only [readFrames, List.mem_cons, List.not_mem_nil, or_false] at h
  rcases h with rfl | rfl | rfl | rfl | rfl | rfl | rfl <;> exact ⟨_, rfl, rfl⟩

theorem writeTaken_fixedLength {params : List Byte} {x : Instr × Byte × Nat} (h : x ∈ fixedLengthCommands params) :
    readCommands.lookup x.2.1 = none ∧ writeTaken (x.2.1 :: params) = some x.1 := by
  simp only [fixedLengthCommands, List.mem_cons, List.not_mem_nil, or_false] at h
  rcases h with rfl | rfl | rfl | rfl | rfl | rfl | rfl | rfl | rfl | rfl | rfl | rfl | rfl | rfl <;> exact ⟨rfl, rfl⟩

/-! ### The edges -/

/-- Everything an edge can do: it changes the frame in progress, or after such a change a command is carried out. An
incomplete byte keeps fewer than 8 bits, and no frame begins while the link waits for SSEL. -/
theorem takeEdge_cases {e : LinkEdge} {s t : State} (h : takeEdge e s = .next t)
    (hb : ∀ f, s.link.frame = some f → f.bits.length < 8 ∧ s.link.awaitRise = false) :
    ∃ g : Option Frame, (∀ f, g = some f → f.bits.length < 8 ∧ s.link.awaitRise = false) ∧
      (t = s.updLink (fun l => { l with frame := g }) ∨
        ∃ c, exec c (s.updLink (fun l => { l with frame := g })) = .next t) := by
  have keep : s.updLink (fun l => { l with frame := s.link.frame }) = s := rfl
  cases e with
  | sselFall =>
    simp only [takeEdge, sselFalls] at h
    split at h <;> cases h
    · exact ⟨s.link.frame, hb, .inl keep.symm⟩
    · next hw =>
      refine ⟨some .start, ?_, .inl rfl⟩
      rintro f ⟨⟩
      exact ⟨by decide, by simp_all⟩
  | sckFall =>
    cases h
    refine ⟨s.link.frame.map Frame.shiftOut, fun f hf => ?_, .inl rfl⟩
    obtain ⟨f', hf', rfl⟩ := Option.map_eq_some_iff.mp hf
    simpa using hb f' hf'
  | sckRise sdi =>
    simp only [takeEdge, sckRises] at h
    split at h
    · cases h; exact ⟨s.link.frame, hb, .inl keep.symm⟩
    · next f hf =>
      refine ⟨some (f.shiftIn sdi), ?_, ?_⟩
      · rintro _ ⟨⟩
        exact ⟨f.shiftIn_bits sdi, (hb f hf).2⟩
      · split at h
        · exact .inr ⟨_, h⟩
        · cases h; exact .inl rfl
  | sselRise =>
    simp only [takeEdge, sselRises] at h
    split at h
    · split at h
      · exact ⟨s.link.frame, hb, .inr ⟨_, keep ▸ h⟩⟩
      · cases h; exact ⟨s.link.frame, hb, .inl keep.symm⟩
    · split at h
      · exact ⟨s.link.frame, hb, .inr ⟨_, keep ▸ h⟩⟩
      · cases h; exact ⟨none, (fun _ hf => nomatch hf), .inl rfl⟩

/-! ### A byte clocked in -/

theorem steps_add (m n : Nat) {s t : State} (h : steps m s = .next t) : steps (m + n) s = steps n t := by
  induction m generalizing s with
  | zero => cases h; simp
  | succ m ih =>
    rw [Nat.succ_add]
    simp only [steps] at h ⊢
    split at h <;> first | exact ih h | cases h

theorem step_edge {e : LinkEdge} {rest : List LinkEdge} {s : State} (hp : s.pending = []) (he : s.edges = e :: rest) :
    step s = takeEdge e { s with edges := rest } := by
  simp [step, hp, he]

/-- The state in which the edges `rest` are to come and this frame is in progress. -/
def State.atFrame (s : State) (rest : List LinkEdge) (f : Frame) : State :=
  { s with edges := rest, link := { s.link with frame := some f } }

/-- A rising SCK that completes no read command's last byte takes its bit in. -/
theorem step_rise {s : State} (hp : s.pending = []) (b : Bool) (rest : List LinkEdge) (f : Frame)
    (hr : (f.shiftIn b).bits = [] → readTaken (f.shiftIn b).bytes = none) :
    step (s.atFrame (.sckRise b :: rest) f) = .next (s.atFrame rest (f.shiftIn b)) := by
  rw [step_edge (s := s.atFrame (.sckRise b :: rest) f) hp rfl]
  simp only [takeEdge, sckRises, State.atFrame]
  split
  · next hc =>
    split at hc
    · next hbits => rw [hr hbits] at hc; cases hc
    · cases hc
  · rfl

theorem step_fall {s : State} (hp : s.pending = []) (rest : List LinkEdge) (f : Frame) :
    step (s.atFrame (.sckFall :: rest) f) = .next (s.atFrame rest f.shiftOut) := by
  rw [step_edge (s := s.atFrame (.sckFall :: rest) f) hp rfl]
  rfl

/-- Two steps clock one bit in and one out. -/
theorem steps_bit {s : State} (hp : s.pending = []) (b : Bool) (rest : List LinkEdge) (f : Frame)
    (hr : (f.shiftIn b).bits = [] → readTaken (f.shiftIn b).bytes = none) :
    steps 2 (s.atFrame (bitEdges b ++ rest) f) = .next (s.atFrame rest (f.shiftIn b).shiftOut) := by
  simp only [steps, bitEdges, List.cons_append, List.nil_append, step_rise hp b _ f hr, step_fall hp]

/-- Bits that leave the byte incomplete are kept in order, in a frame that has nothing to send. -/
theorem steps_bits {s : State} (hp : s.pending = []) (bytes : List Byte) (rest : List LinkEdge) :
    ∀ (more bits : List Bool), (bits ++ more).length < 8 →
      steps (2 * more.length) (s.atFrame (more.flatMap bitEdges ++ rest) ⟨bytes, bits, [], false⟩) =
        .next (s.atFrame rest ⟨bytes, bits ++ more, [], false⟩)
  | [], bits, _ => by simp [steps]
  | b :: more, bits, h => by
    simp only [List.length_append, List.length_cons] at h
    have hs := steps_bit hp b (more.flatMap bitEdges ++ rest) ⟨bytes, bits, [], false⟩
      (by simp [Frame.shiftIn, show bits.length < 7 by omega])
    rw [Frame.shift_bit bytes b false (by omega)] at hs
    rw [List.length_cons, Nat.mul_succ, Nat.add_comm, List.flatMap_cons, List.append_assoc, steps_add 2 _ hs]
    simpa using steps_bits hp bytes rest more (bits ++ [b]) (by simp; omega)

/-- Sixteen steps clock a byte in, in a frame that has nothing to send and comes to no read command by it. -/
theorem steps_byte {s : State} (hp : s.pending = []) (bytes : List Byte) (b : Byte) (rest : List LinkEdge)
    (hr : readTaken (bytes ++ [b]) = none) :
    steps 16 (s.atFrame (byteEdges b ++ rest) ⟨bytes, [], [], false⟩) =
      .next (s.atFrame rest ⟨bytes ++ [b], [], [], false⟩) := by
  have hsplit : byteEdges b = ((List.range 7).map b.getMsbD).flatMap bitEdges ++ bitEdges (b.getMsbD 7) := rfl
  have hlast := Frame.shift_last bytes (bits := (List.range 7).map b.getMsbD) [] (b.getMsbD 7) false rfl
  have hbyte : byteOfBits ((List.range 7).map b.getMsbD ++ [b.getMsbD 7]) = b := byteOfBits_getMsbD b
  rw [hbyte] at hlast
  have h7 := steps_bits hp bytes (bitEdges (b.getMsbD 7) ++ rest) ((List.range 7).map b.getMsbD) [] (by simp)
  have h1 := steps_bit hp (b.getMsbD 7) rest ⟨bytes, (List.range 7).map b.getMsbD, [], false⟩
    (by rw [hlast]; exact fun _ => hr)
  rw [hlast] at h1
  rw [show Frame.shiftOut ⟨bytes ++ [b], [], [].tail, false⟩ = ⟨bytes ++ [b], [], [], false⟩ by
    simp [Frame.shiftOut]] at h1
  rw [List.nil_append] at h7
  rw [hsplit, List.append_assoc, show 16 = 2 * ((List.range 7).map b.getMsbD).length + 2 from rfl, steps_add _ 2 h7]
  exact h1

/-- The bytes after the code byte of a write command are received one after another. -/
theorem steps_bytes {s : State} (hp : s.pending = []) {code : Byte} (hc : readCommands.lookup code = none)
    (rest : List LinkEdge) : ∀ (more params : List Byte),
      steps (16 * more.length) (s.atFrame (more.flatMap byteEdges ++ rest) ⟨code :: params, [], [], false⟩) =
        .next (s.atFrame rest ⟨code :: (params ++ more), [], [], false⟩)
  | [], params => by simp [steps]
  | b :: more, params => by
    have h := steps_byte hp (code :: params) b (more.flatMap byteEdges ++ rest) (by simp [readTaken, hc])
    rw [List.flatMap_cons, List.append_assoc, List.length_cons, Nat.mul_succ, Nat.add_comm, steps_add 16 _ h]
    simpa using steps_bytes hp hc rest more (params ++ [b])

end Sys2Proof.Machine
end

