-- ==== Sys2Proof/Laws/State.lean ====
section
/-! SUPPORT. The small lemmas of the state: reading a table after `upd`, and, for each named update of the state, what
each field is afterwards. All the field lemmas hold by `rfl`, so that no later proof unfolds a record update. -/

namespace Sys2Proof.Machine

/-! ### Tables -/

theorem upd_same {α : Type} {n : Nat} (v : Vector α n) (i : Fin n) (f : α → α) : (upd v i f)[i] = f v[i] := by
  simp [upd]

/-- The same in the form to which `simp` brings an index. -/
@[simp] theorem upd_same_val {α : Type} {n : Nat} (v : Vector α n) (i : Fin n) (f : α → α) :
    (upd v i f)[(i : Nat)] = f v[(i : Nat)] := upd_same v i f

theorem upd_ne {α : Type} {n : Nat} (v : Vector α n) {i j : Fin n} (f : α → α) (h : i ≠ j) : (upd v i f)[j] = v[j] := by
  have : (i : Nat) ≠ j := fun e => h (Fin.ext e)
  simp [upd, Vector.getElem_set_ne, this]

/-- The entry `j` of a table whose entry `i` was changed. -/
theorem upd_get {α : Type} {n : Nat} (v : Vector α n) (i j : Fin n) (f : α → α) :
    (upd v i f)[j] = if i = j then f v[i] else v[j] := by
  by_cases h : i = j
  · subst h; simp
  · simp [upd_ne v f h, h]

/-- Every entry of a table meets `p` after a change of entry `i` that keeps `p`. -/
theorem upd_forall {α : Type} {n : Nat} {p : α → Prop} {v : Vector α n} {i : Fin n} {f : α → α}
    (h : ∀ j : Fin n, p v[j]) (hf : p (f v[i])) (j : Fin n) : p (upd v i f)[j] := by
  rw [upd_get]
  split
  · exact hf
  · exact h j


/-! ### `updWindow` -/

@[simp] theorem State.updWindow_pending (s : State) (w : Fin 16) (f : Window → Window) : (s.updWindow w f).pending = s.pending := rfl
@[simp] theorem State.updWindow_edges (s : State) (w : Fin 16) (f : Window → Window) : (s.updWindow w f).edges = s.edges := rfl
@[simp] theorem State.updWindow_draws (s : State) (w : Fin 16) (f : Window → Window) : (s.updWindow w f).draws = s.draws := rfl
@[simp] theorem State.updWindow_nextId (s : State) (w : Fin 16) (f : Window → Window) : (s.updWindow w f).nextId = s.nextId := rfl
@[simp] theorem State.updWindow_intake (s : State) (w : Fin 16) (f : Window → Window) : (s.updWindow w f).intake = s.intake := rfl
@[simp] theorem State.updWindow_onBus (s : State) (w : Fin 16) (f : Window → Window) : (s.updWindow w f).onBus = s.onBus := rfl
@[simp] theorem State.updWindow_responses (s : State) (w : Fin 16) (f : Window → Window) : (s.updWindow w f).responses = s.responses := rfl
@[simp] theorem State.updWindow_sent (s : State) (w : Fin 16) (f : Window → Window) : (s.updWindow w f).sent = s.sent := rfl
@[simp] theorem State.updWindow_places (s : State) (w : Fin 16) (f : Window → Window) : (s.updWindow w f).places = s.places := rfl
@[simp] theorem State.updWindow_lastGranted (s : State) (w : Fin 16) (f : Window → Window) : (s.updWindow w f).lastGranted = s.lastGranted := rfl
@[simp] theorem State.updWindow_windows (s : State) (w : Fin 16) (f : Window → Window) :
    (s.updWindow w f).windows = upd s.windows w f := rfl
@[simp] theorem State.updWindow_stallTimers (s : State) (w : Fin 16) (f : Window → Window) : (s.updWindow w f).stallTimers = s.stallTimers := rfl
@[simp] theorem State.updWindow_slots (s : State) (w : Fin 16) (f : Window → Window) : (s.updWindow w f).slots = s.slots := rfl
@[simp] theorem State.updWindow_rolls (s : State) (w : Fin 16) (f : Window → Window) : (s.updWindow w f).rolls = s.rolls := rfl
@[simp] theorem State.updWindow_consumers (s : State) (w : Fin 16) (f : Window → Window) : (s.updWindow w f).consumers = s.consumers := rfl
@[simp] theorem State.updWindow_views (s : State) (w : Fin 16) (f : Window → Window) : (s.updWindow w f).views = s.views := rfl
@[simp] theorem State.updWindow_copier (s : State) (w : Fin 16) (f : Window → Window) : (s.updWindow w f).copier = s.copier := rfl
@[simp] theorem State.updWindow_commits (s : State) (w : Fin 16) (f : Window → Window) : (s.updWindow w f).commits = s.commits := rfl
@[simp] theorem State.updWindow_notice (s : State) (w : Fin 16) (f : Window → Window) : (s.updWindow w f).notice = s.notice := rfl
@[simp] theorem State.updWindow_link (s : State) (w : Fin 16) (f : Window → Window) : (s.updWindow w f).link = s.link := rfl
@[simp] theorem State.updWindow_timebase (s : State) (w : Fin 16) (f : Window → Window) : (s.updWindow w f).timebase = s.timebase := rfl

/-! ### `updCommits` -/

@[simp] theorem State.updCommits_pending (s : State) (w : Fin 16) (f : CommitState → CommitState) : (s.updCommits w f).pending = s.pending := rfl
@[simp] theorem State.updCommits_edges (s : State) (w : Fin 16) (f : CommitState → CommitState) : (s.updCommits w f).edges = s.edges := rfl
@[simp] theorem State.updCommits_draws (s : State) (w : Fin 16) (f : CommitState → CommitState) : (s.updCommits w f).draws = s.draws := rfl
@[simp] theorem State.updCommits_nextId (s : State) (w : Fin 16) (f : CommitState → CommitState) : (s.updCommits w f).nextId = s.nextId := rfl
@[simp] theorem State.updCommits_intake (s : State) (w : Fin 16) (f : CommitState → CommitState) : (s.updCommits w f).intake = s.intake := rfl
@[simp] theorem State.updCommits_onBus (s : State) (w : Fin 16) (f : CommitState → CommitState) : (s.updCommits w f).onBus = s.onBus := rfl
@[simp] theorem State.updCommits_responses (s : State) (w : Fin 16) (f : CommitState → CommitState) : (s.updCommits w f).responses = s.responses := rfl
@[simp] theorem State.updCommits_sent (s : State) (w : Fin 16) (f : CommitState → CommitState) : (s.updCommits w f).sent = s.sent := rfl
@[simp] theorem State.updCommits_places (s : State) (w : Fin 16) (f : CommitState → CommitState) : (s.updCommits w f).places = s.places := rfl
@[simp] theorem State.updCommits_lastGranted (s : State) (w : Fin 16) (f : CommitState → CommitState) : (s.updCommits w f).lastGranted = s.lastGranted := rfl
@[simp] theorem State.updCommits_windows (s : State) (w : Fin 16) (f : CommitState → CommitState) : (s.updCommits w f).windows = s.windows := rfl
@[simp] theorem State.updCommits_stallTimers (s : State) (w : Fin 16) (f : CommitState → CommitState) : (s.updCommits w f).stallTimers = s.stallTimers := rfl
@[simp] theorem State.updCommits_slots (s : State) (w : Fin 16) (f : CommitState → CommitState) : (s.updCommits w f).slots = s.slots := rfl
@[simp] theorem State.updCommits_rolls (s : State) (w : Fin 16) (f : CommitState → CommitState) : (s.updCommits w f).rolls = s.rolls := rfl
@[simp] theorem State.updCommits_consumers (s : State) (w : Fin 16) (f : CommitState → CommitState) : (s.updCommits w f).consumers = s.consumers := rfl
@[simp] theorem State.updCommits_views (s : State) (w : Fin 16) (f : CommitState → CommitState) : (s.updCommits w f).views = s.views := rfl
@[simp] theorem State.updCommits_copier (s : State) (w : Fin 16) (f : CommitState → CommitState) : (s.updCommits w f).copier = s.copier := rfl
@[simp] theorem State.updCommits_commits (s : State) (w : Fin 16) (f : CommitState → CommitState) :
    (s.updCommits w f).commits = upd s.commits w f := rfl
@[simp] theorem State.updCommits_notice (s : State) (w : Fin 16) (f : CommitState → CommitState) : (s.updCommits w f).notice = s.notice := rfl
@[simp] theorem State.updCommits_link (s : State) (w : Fin 16) (f : CommitState → CommitState) : (s.updCommits w f).link = s.link := rfl
@[simp] theorem State.updCommits_timebase (s : State) (w : Fin 16) (f : CommitState → CommitState) : (s.updCommits w f).timebase = s.timebase := rfl

/-! ### `updSlotUnit` -/

@[simp] theorem State.updSlotUnit_pending (s : State) (w : Fin 16) (f : SlotUnit → SlotUnit) : (s.updSlotUnit w f).pending = s.pending := rfl
@[simp] theorem State.updSlotUnit_edges (s : State) (w : Fin 16) (f : SlotUnit → SlotUnit) : (s.updSlotUnit w f).edges = s.edges := rfl
@[simp] theorem State.updSlotUnit_draws (s : State) (w : Fin 16) (f : SlotUnit → SlotUnit) : (s.updSlotUnit w f).draws = s.draws := rfl
@[simp] theorem State.updSlotUnit_nextId (s : State) (w : Fin 16) (f : SlotUnit → SlotUnit) : (s.updSlotUnit w f).nextId = s.nextId := rfl
@[simp] theorem State.updSlotUnit_intake (s : State) (w : Fin 16) (f : SlotUnit → SlotUnit) : (s.updSlotUnit w f).intake = s.intake := rfl
@[simp] theorem State.updSlotUnit_onBus (s : State) (w : Fin 16) (f : SlotUnit → SlotUnit) : (s.updSlotUnit w f).onBus = s.onBus := rfl
@[simp] theorem State.updSlotUnit_responses (s : State) (w : Fin 16) (f : SlotUnit → SlotUnit) : (s.updSlotUnit w f).responses = s.responses := rfl
@[simp] theorem State.updSlotUnit_sent (s : State) (w : Fin 16) (f : SlotUnit → SlotUnit) : (s.updSlotUnit w f).sent = s.sent := rfl
@[simp] theorem State.updSlotUnit_places (s : State) (w : Fin 16) (f : SlotUnit → SlotUnit) : (s.updSlotUnit w f).places = s.places := rfl
@[simp] theorem State.updSlotUnit_lastGranted (s : State) (w : Fin 16) (f : SlotUnit → SlotUnit) : (s.updSlotUnit w f).lastGranted = s.lastGranted := rfl
@[simp] theorem State.updSlotUnit_windows (s : State) (w : Fin 16) (f : SlotUnit → SlotUnit) : (s.updSlotUnit w f).windows = s.windows := rfl
@[simp] theorem State.updSlotUnit_stallTimers (s : State) (w : Fin 16) (f : SlotUnit → SlotUnit) : (s.updSlotUnit w f).stallTimers = s.stallTimers := rfl
@[simp] theorem State.updSlotUnit_slots (s : State) (w : Fin 16) (f : SlotUnit → SlotUnit) :
    (s.updSlotUnit w f).slots = upd s.slots w (Option.map f) := rfl
@[simp] theorem State.updSlotUnit_rolls (s : State) (w : Fin 16) (f : SlotUnit → SlotUnit) : (s.updSlotUnit w f).rolls = s.rolls := rfl
@[simp] theorem State.updSlotUnit_consumers (s : State) (w : Fin 16) (f : SlotUnit → SlotUnit) : (s.updSlotUnit w f).consumers = s.consumers := rfl
@[simp] theorem State.updSlotUnit_views (s : State) (w : Fin 16) (f : SlotUnit → SlotUnit) : (s.updSlotUnit w f).views = s.views := rfl
@[simp] theorem State.updSlotUnit_copier (s : State) (w : Fin 16) (f : SlotUnit → SlotUnit) : (s.updSlotUnit w f).copier = s.copier := rfl
@[simp] theorem State.updSlotUnit_commits (s : State) (w : Fin 16) (f : SlotUnit → SlotUnit) : (s.updSlotUnit w f).commits = s.commits := rfl
@[simp] theorem State.updSlotUnit_notice (s : State) (w : Fin 16) (f : SlotUnit → SlotUnit) : (s.updSlotUnit w f).notice = s.notice := rfl
@[simp] theorem State.updSlotUnit_link (s : State) (w : Fin 16) (f : SlotUnit → SlotUnit) : (s.updSlotUnit w f).link = s.link := rfl
@[simp] theorem State.updSlotUnit_timebase (s : State) (w : Fin 16) (f : SlotUnit → SlotUnit) : (s.updSlotUnit w f).timebase = s.timebase := rfl

/-! ### `updSlot` -/

@[simp] theorem State.updSlot_pending (s : State) (w : Fin 16) (i : Fin 4) (f : Slot → Slot) : (s.updSlot w i f).pending = s.pending := rfl
@[simp] theorem State.updSlot_edges (s : State) (w : Fin 16) (i : Fin 4) (f : Slot → Slot) : (s.updSlot w i f).edges = s.edges := rfl
@[simp] theorem State.updSlot_draws (s : State) (w : Fin 16) (i : Fin 4) (f : Slot → Slot) : (s.updSlot w i f).draws = s.draws := rfl
@[simp] theorem State.updSlot_nextId (s : State) (w : Fin 16) (i : Fin 4) (f : Slot → Slot) : (s.updSlot w i f).nextId = s.nextId := rfl
@[simp] theorem State.updSlot_intake (s : State) (w : Fin 16) (i : Fin 4) (f : Slot → Slot) : (s.updSlot w i f).intake = s.intake := rfl
@[simp] theorem State.updSlot_onBus (s : State) (w : Fin 16) (i : Fin 4) (f : Slot → Slot) : (s.updSlot w i f).onBus = s.onBus := rfl
@[simp] theorem State.updSlot_responses (s : State) (w : Fin 16) (i : Fin 4) (f : Slot → Slot) : (s.updSlot w i f).responses = s.responses := rfl
@[simp] theorem State.updSlot_sent (s : State) (w : Fin 16) (i : Fin 4) (f : Slot → Slot) : (s.updSlot w i f).sent = s.sent := rfl
@[simp] theorem State.updSlot_places (s : State) (w : Fin 16) (i : Fin 4) (f : Slot → Slot) : (s.updSlot w i f).places = s.places := rfl
@[simp] theorem State.updSlot_lastGranted (s : State) (w : Fin 16) (i : Fin 4) (f : Slot → Slot) : (s.updSlot w i f).lastGranted = s.lastGranted := rfl
@[simp] theorem State.updSlot_windows (s : State) (w : Fin 16) (i : Fin 4) (f : Slot → Slot) : (s.updSlot w i f).windows = s.windows := rfl
@[simp] theorem State.updSlot_stallTimers (s : State) (w : Fin 16) (i : Fin 4) (f : Slot → Slot) : (s.updSlot w i f).stallTimers = s.stallTimers := rfl
@[simp] theorem State.updSlot_slots (s : State) (w : Fin 16) (i : Fin 4) (f : Slot → Slot) :
    (s.updSlot w i f).slots = upd s.slots w (Option.map (fun u => { u with slots := upd u.slots i (Option.map f) })) := rfl
@[simp] theorem State.updSlot_rolls (s : State) (w : Fin 16) (i : Fin 4) (f : Slot → Slot) : (s.updSlot w i f).rolls = s.rolls := rfl
@[simp] theorem State.updSlot_consumers (s : State) (w : Fin 16) (i : Fin 4) (f : Slot → Slot) : (s.updSlot w i f).consumers = s.consumers := rfl
@[simp] theorem State.updSlot_views (s : State) (w : Fin 16) (i : Fin 4) (f : Slot → Slot) : (s.updSlot w i f).views = s.views := rfl
@[simp] theorem State.updSlot_copier (s : State) (w : Fin 16) (i : Fin 4) (f : Slot → Slot) : (s.updSlot w i f).copier = s.copier := rfl
@[simp] theorem State.updSlot_commits (s : State) (w : Fin 16) (i : Fin 4) (f : Slot → Slot) : (s.updSlot w i f).commits = s.commits := rfl
@[simp] theorem State.updSlot_notice (s : State) (w : Fin 16) (i : Fin 4) (f : Slot → Slot) : (s.updSlot w i f).notice = s.notice := rfl
@[simp] theorem State.updSlot_link (s : State) (w : Fin 16) (i : Fin 4) (f : Slot → Slot) : (s.updSlot w i f).link = s.link := rfl
@[simp] theorem State.updSlot_timebase (s : State) (w : Fin 16) (i : Fin 4) (f : Slot → Slot) : (s.updSlot w i f).timebase = s.timebase := rfl

/-! ### `updRoll` -/

@[simp] theorem State.updRoll_pending (s : State) (w : Fin 16) (f : RollState → RollState) : (s.updRoll w f).pending = s.pending := rfl
@[simp] theorem State.updRoll_edges (s : State) (w : Fin 16) (f : RollState → RollState) : (s.updRoll w f).edges = s.edges := rfl
@[simp] theorem State.updRoll_draws (s : State) (w : Fin 16) (f : RollState → RollState) : (s.updRoll w f).draws = s.draws := rfl
@[simp] theorem State.updRoll_nextId (s : State) (w : Fin 16) (f : RollState → RollState) : (s.updRoll w f).nextId = s.nextId := rfl
@[simp] theorem State.updRoll_intake (s : State) (w : Fin 16) (f : RollState → RollState) : (s.updRoll w f).intake = s.intake := rfl
@[simp] theorem State.updRoll_onBus (s : State) (w : Fin 16) (f : RollState → RollState) : (s.updRoll w f).onBus = s.onBus := rfl
@[simp] theorem State.updRoll_responses (s : State) (w : Fin 16) (f : RollState → RollState) : (s.updRoll w f).responses = s.responses := rfl
@[simp] theorem State.updRoll_sent (s : State) (w : Fin 16) (f : RollState → RollState) : (s.updRoll w f).sent = s.sent := rfl
@[simp] theorem State.updRoll_places (s : State) (w : Fin 16) (f : RollState → RollState) : (s.updRoll w f).places = s.places := rfl
@[simp] theorem State.updRoll_lastGranted (s : State) (w : Fin 16) (f : RollState → RollState) : (s.updRoll w f).lastGranted = s.lastGranted := rfl
@[simp] theorem State.updRoll_windows (s : State) (w : Fin 16) (f : RollState → RollState) : (s.updRoll w f).windows = s.windows := rfl
@[simp] theorem State.updRoll_stallTimers (s : State) (w : Fin 16) (f : RollState → RollState) : (s.updRoll w f).stallTimers = s.stallTimers := rfl
@[simp] theorem State.updRoll_slots (s : State) (w : Fin 16) (f : RollState → RollState) : (s.updRoll w f).slots = s.slots := rfl
@[simp] theorem State.updRoll_rolls (s : State) (w : Fin 16) (f : RollState → RollState) :
    (s.updRoll w f).rolls = upd s.rolls w (Option.map f) := rfl
@[simp] theorem State.updRoll_consumers (s : State) (w : Fin 16) (f : RollState → RollState) : (s.updRoll w f).consumers = s.consumers := rfl
@[simp] theorem State.updRoll_views (s : State) (w : Fin 16) (f : RollState → RollState) : (s.updRoll w f).views = s.views := rfl
@[simp] theorem State.updRoll_copier (s : State) (w : Fin 16) (f : RollState → RollState) : (s.updRoll w f).copier = s.copier := rfl
@[simp] theorem State.updRoll_commits (s : State) (w : Fin 16) (f : RollState → RollState) : (s.updRoll w f).commits = s.commits := rfl
@[simp] theorem State.updRoll_notice (s : State) (w : Fin 16) (f : RollState → RollState) : (s.updRoll w f).notice = s.notice := rfl
@[simp] theorem State.updRoll_link (s : State) (w : Fin 16) (f : RollState → RollState) : (s.updRoll w f).link = s.link := rfl
@[simp] theorem State.updRoll_timebase (s : State) (w : Fin 16) (f : RollState → RollState) : (s.updRoll w f).timebase = s.timebase := rfl

/-! ### `updView` -/

@[simp] theorem State.updView_pending (s : State) (w : Fin 16) (c : Fin 8) (f : View → View) : (s.updView w c f).pending = s.pending := rfl
@[simp] theorem State.updView_edges (s : State) (w : Fin 16) (c : Fin 8) (f : View → View) : (s.updView w c f).edges = s.edges := rfl
@[simp] theorem State.updView_draws (s : State) (w : Fin 16) (c : Fin 8) (f : View → View) : (s.updView w c f).draws = s.draws := rfl
@[simp] theorem State.updView_nextId (s : State) (w : Fin 16) (c : Fin 8) (f : View → View) : (s.updView w c f).nextId = s.nextId := rfl
@[simp] theorem State.updView_intake (s : State) (w : Fin 16) (c : Fin 8) (f : View → View) : (s.updView w c f).intake = s.intake := rfl
@[simp] theorem State.updView_onBus (s : State) (w : Fin 16) (c : Fin 8) (f : View → View) : (s.updView w c f).onBus = s.onBus := rfl
@[simp] theorem State.updView_responses (s : State) (w : Fin 16) (c : Fin 8) (f : View → View) : (s.updView w c f).responses = s.responses := rfl
@[simp] theorem State.updView_sent (s : State) (w : Fin 16) (c : Fin 8) (f : View → View) : (s.updView w c f).sent = s.sent := rfl
@[simp] theorem State.updView_places (s : State) (w : Fin 16) (c : Fin 8) (f : View → View) : (s.updView w c f).places = s.places := rfl
@[simp] theorem State.updView_lastGranted (s : State) (w : Fin 16) (c : Fin 8) (f : View → View) : (s.updView w c f).lastGranted = s.lastGranted := rfl
@[simp] theorem State.updView_windows (s : State) (w : Fin 16) (c : Fin 8) (f : View → View) : (s.updView w c f).windows = s.windows := rfl
@[simp] theorem State.updView_stallTimers (s : State) (w : Fin 16) (c : Fin 8) (f : View → View) : (s.updView w c f).stallTimers = s.stallTimers := rfl
@[simp] theorem State.updView_slots (s : State) (w : Fin 16) (c : Fin 8) (f : View → View) : (s.updView w c f).slots = s.slots := rfl
@[simp] theorem State.updView_rolls (s : State) (w : Fin 16) (c : Fin 8) (f : View → View) : (s.updView w c f).rolls = s.rolls := rfl
@[simp] theorem State.updView_consumers (s : State) (w : Fin 16) (c : Fin 8) (f : View → View) : (s.updView w c f).consumers = s.consumers := rfl
@[simp] theorem State.updView_views (s : State) (w : Fin 16) (c : Fin 8) (f : View → View) :
    (s.updView w c f).views = upd s.views w (fun vs => upd vs c (Option.map f)) := rfl
@[simp] theorem State.updView_copier (s : State) (w : Fin 16) (c : Fin 8) (f : View → View) : (s.updView w c f).copier = s.copier := rfl
@[simp] theorem State.updView_commits (s : State) (w : Fin 16) (c : Fin 8) (f : View → View) : (s.updView w c f).commits = s.commits := rfl
@[simp] theorem State.updView_notice (s : State) (w : Fin 16) (c : Fin 8) (f : View → View) : (s.updView w c f).notice = s.notice := rfl
@[simp] theorem State.updView_link (s : State) (w : Fin 16) (c : Fin 8) (f : View → View) : (s.updView w c f).link = s.link := rfl
@[simp] theorem State.updView_timebase (s : State) (w : Fin 16) (c : Fin 8) (f : View → View) : (s.updView w c f).timebase = s.timebase := rfl

/-! ### `updNotice` -/

@[simp] theorem State.updNotice_pending (s : State) (f : NoticeUnit → NoticeUnit) : (s.updNotice f).pending = s.pending := rfl
@[simp] theorem State.updNotice_edges (s : State) (f : NoticeUnit → NoticeUnit) : (s.updNotice f).edges = s.edges := rfl
@[simp] theorem State.updNotice_draws (s : State) (f : NoticeUnit → NoticeUnit) : (s.updNotice f).draws = s.draws := rfl
@[simp] theorem State.updNotice_nextId (s : State) (f : NoticeUnit → NoticeUnit) : (s.updNotice f).nextId = s.nextId := rfl
@[simp] theorem State.updNotice_intake (s : State) (f : NoticeUnit → NoticeUnit) : (s.updNotice f).intake = s.intake := rfl
@[simp] theorem State.updNotice_onBus (s : State) (f : NoticeUnit → NoticeUnit) : (s.updNotice f).onBus = s.onBus := rfl
@[simp] theorem State.updNotice_responses (s : State) (f : NoticeUnit → NoticeUnit) : (s.updNotice f).responses = s.responses := rfl
@[simp] theorem State.updNotice_sent (s : State) (f : NoticeUnit → NoticeUnit) : (s.updNotice f).sent = s.sent := rfl
@[simp] theorem State.updNotice_places (s : State) (f : NoticeUnit → NoticeUnit) : (s.updNotice f).places = s.places := rfl
@[simp] theorem State.updNotice_lastGranted (s : State) (f : NoticeUnit → NoticeUnit) : (s.updNotice f).lastGranted = s.lastGranted := rfl
@[simp] theorem State.updNotice_windows (s : State) (f : NoticeUnit → NoticeUnit) : (s.updNotice f).windows = s.windows := rfl
@[simp] theorem State.updNotice_stallTimers (s : State) (f : NoticeUnit → NoticeUnit) : (s.updNotice f).stallTimers = s.stallTimers := rfl
@[simp] theorem State.updNotice_slots (s : State) (f : NoticeUnit → NoticeUnit) : (s.updNotice f).slots = s.slots := rfl
@[simp] theorem State.updNotice_rolls (s : State) (f : NoticeUnit → NoticeUnit) : (s.updNotice f).rolls = s.rolls := rfl
@[simp] theorem State.updNotice_consumers (s : State) (f : NoticeUnit → NoticeUnit) : (s.updNotice f).consumers = s.consumers := rfl
@[simp] theorem State.updNotice_views (s : State) (f : NoticeUnit → NoticeUnit) : (s.updNotice f).views = s.views := rfl
@[simp] theorem State.updNotice_copier (s : State) (f : NoticeUnit → NoticeUnit) : (s.updNotice f).copier = s.copier := rfl
@[simp] theorem State.updNotice_commits (s : State) (f : NoticeUnit → NoticeUnit) : (s.updNotice f).commits = s.commits := rfl
@[simp] theorem State.updNotice_notice (s : State) (f : NoticeUnit → NoticeUnit) :
    (s.updNotice f).notice = f s.notice := rfl
@[simp] theorem State.updNotice_link (s : State) (f : NoticeUnit → NoticeUnit) : (s.updNotice f).link = s.link := rfl
@[simp] theorem State.updNotice_timebase (s : State) (f : NoticeUnit → NoticeUnit) : (s.updNotice f).timebase = s.timebase := rfl

/-! ### `updCopier` -/

@[simp] theorem State.updCopier_pending (s : State) (f : Copier → Copier) : (s.updCopier f).pending = s.pending := rfl
@[simp] theorem State.updCopier_edges (s : State) (f : Copier → Copier) : (s.updCopier f).edges = s.edges := rfl
@[simp] theorem State.updCopier_draws (s : State) (f : Copier → Copier) : (s.updCopier f).draws = s.draws := rfl
@[simp] theorem State.updCopier_nextId (s : State) (f : Copier → Copier) : (s.updCopier f).nextId = s.nextId := rfl
@[simp] theorem State.updCopier_intake (s : State) (f : Copier → Copier) : (s.updCopier f).intake = s.intake := rfl
@[simp] theorem State.updCopier_onBus (s : State) (f : Copier → Copier) : (s.updCopier f).onBus = s.onBus := rfl
@[simp] theorem State.updCopier_responses (s : State) (f : Copier → Copier) : (s.updCopier f).responses = s.responses := rfl
@[simp] theorem State.updCopier_sent (s : State) (f : Copier → Copier) : (s.updCopier f).sent = s.sent := rfl
@[simp] theorem State.updCopier_places (s : State) (f : Copier → Copier) : (s.updCopier f).places = s.places := rfl
@[simp] theorem State.updCopier_lastGranted (s : State) (f : Copier → Copier) : (s.updCopier f).lastGranted = s.lastGranted := rfl
@[simp] theorem State.updCopier_windows (s : State) (f : Copier → Copier) : (s.updCopier f).windows = s.windows := rfl
@[simp] theorem State.updCopier_stallTimers (s : State) (f : Copier → Copier) : (s.updCopier f).stallTimers = s.stallTimers := rfl
@[simp] theorem State.updCopier_slots (s : State) (f : Copier → Copier) : (s.updCopier f).slots = s.slots := rfl
@[simp] theorem State.updCopier_rolls (s : State) (f : Copier → Copier) : (s.updCopier f).rolls = s.rolls := rfl
@[simp] theorem State.updCopier_consumers (s : State) (f : Copier → Copier) : (s.updCopier f).consumers = s.consumers := rfl
@[simp] theorem State.updCopier_views (s : State) (f : Copier → Copier) : (s.updCopier f).views = s.views := rfl
@[simp] theorem State.updCopier_copier (s : State) (f : Copier → Copier) :
    (s.updCopier f).copier = f s.copier := rfl
@[simp] theorem State.updCopier_commits (s : State) (f : Copier → Copier) : (s.updCopier f).commits = s.commits := rfl
@[simp] theorem State.updCopier_notice (s : State) (f : Copier → Copier) : (s.updCopier f).notice = s.notice := rfl
@[simp] theorem State.updCopier_link (s : State) (f : Copier → Copier) : (s.updCopier f).link = s.link := rfl
@[simp] theorem State.updCopier_timebase (s : State) (f : Copier → Copier) : (s.updCopier f).timebase = s.timebase := rfl

/-! ### `updCopy` -/

@[simp] theorem State.updCopy_pending (s : State) (f : Copy → Copy) : (s.updCopy f).pending = s.pending := rfl
@[simp] theorem State.updCopy_edges (s : State) (f : Copy → Copy) : (s.updCopy f).edges = s.edges := rfl
@[simp] theorem State.updCopy_draws (s : State) (f : Copy → Copy) : (s.updCopy f).draws = s.draws := rfl
@[simp] theorem State.updCopy_nextId (s : State) (f : Copy → Copy) : (s.updCopy f).nextId = s.nextId := rfl
@[simp] theorem State.updCopy_intake (s : State) (f : Copy → Copy) : (s.updCopy f).intake = s.intake := rfl
@[simp] theorem State.updCopy_onBus (s : State) (f : Copy → Copy) : (s.updCopy f).onBus = s.onBus := rfl
@[simp] theorem State.updCopy_responses (s : State) (f : Copy → Copy) : (s.updCopy f).responses = s.responses := rfl
@[simp] theorem State.updCopy_sent (s : State) (f : Copy → Copy) : (s.updCopy f).sent = s.sent := rfl
@[simp] theorem State.updCopy_places (s : State) (f : Copy → Copy) : (s.updCopy f).places = s.places := rfl
@[simp] theorem State.updCopy_lastGranted (s : State) (f : Copy → Copy) : (s.updCopy f).lastGranted = s.lastGranted := rfl
@[simp] theorem State.updCopy_windows (s : State) (f : Copy → Copy) : (s.updCopy f).windows = s.windows := rfl
@[simp] theorem State.updCopy_stallTimers (s : State) (f : Copy → Copy) : (s.updCopy f).stallTimers = s.stallTimers := rfl
@[simp] theorem State.updCopy_slots (s : State) (f : Copy → Copy) : (s.updCopy f).slots = s.slots := rfl
@[simp] theorem State.updCopy_rolls (s : State) (f : Copy → Copy) : (s.updCopy f).rolls = s.rolls := rfl
@[simp] theorem State.updCopy_consumers (s : State) (f : Copy → Copy) : (s.updCopy f).consumers = s.consumers := rfl
@[simp] theorem State.updCopy_views (s : State) (f : Copy → Copy) : (s.updCopy f).views = s.views := rfl
@[simp] theorem State.updCopy_copier (s : State) (f : Copy → Copy) :
    (s.updCopy f).copier = { s.copier with copy := s.copier.copy.map f } := rfl
@[simp] theorem State.updCopy_commits (s : State) (f : Copy → Copy) : (s.updCopy f).commits = s.commits := rfl
@[simp] theorem State.updCopy_notice (s : State) (f : Copy → Copy) : (s.updCopy f).notice = s.notice := rfl
@[simp] theorem State.updCopy_link (s : State) (f : Copy → Copy) : (s.updCopy f).link = s.link := rfl
@[simp] theorem State.updCopy_timebase (s : State) (f : Copy → Copy) : (s.updCopy f).timebase = s.timebase := rfl

/-! ### `updLink` -/

@[simp] theorem State.updLink_pending (s : State) (f : Link → Link) : (s.updLink f).pending = s.pending := rfl
@[simp] theorem State.updLink_edges (s : State) (f : Link → Link) : (s.updLink f).edges = s.edges := rfl
@[simp] theorem State.updLink_draws (s : State) (f : Link → Link) : (s.updLink f).draws = s.draws := rfl
@[simp] theorem State.updLink_nextId (s : State) (f : Link → Link) : (s.updLink f).nextId = s.nextId := rfl
@[simp] theorem State.updLink_intake (s : State) (f : Link → Link) : (s.updLink f).intake = s.intake := rfl
@[simp] theorem State.updLink_onBus (s : State) (f : Link → Link) : (s.updLink f).onBus = s.onBus := rfl
@[simp] theorem State.updLink_responses (s : State) (f : Link → Link) : (s.updLink f).responses = s.responses := rfl
@[simp] theorem State.updLink_sent (s : State) (f : Link → Link) : (s.updLink f).sent = s.sent := rfl
@[simp] theorem State.updLink_places (s : State) (f : Link → Link) : (s.updLink f).places = s.places := rfl
@[simp] theorem State.updLink_lastGranted (s : State) (f : Link → Link) : (s.updLink f).lastGranted = s.lastGranted := rfl
@[simp] theorem State.updLink_windows (s : State) (f : Link → Link) : (s.updLink f).windows = s.windows := rfl
@[simp] theorem State.updLink_stallTimers (s : State) (f : Link → Link) : (s.updLink f).stallTimers = s.stallTimers := rfl
@[simp] theorem State.updLink_slots (s : State) (f : Link → Link) : (s.updLink f).slots = s.slots := rfl
@[simp] theorem State.updLink_rolls (s : State) (f : Link → Link) : (s.updLink f).rolls = s.rolls := rfl
@[simp] theorem State.updLink_consumers (s : State) (f : Link → Link) : (s.updLink f).consumers = s.consumers := rfl
@[simp] theorem State.updLink_views (s : State) (f : Link → Link) : (s.updLink f).views = s.views := rfl
@[simp] theorem State.updLink_copier (s : State) (f : Link → Link) : (s.updLink f).copier = s.copier := rfl
@[simp] theorem State.updLink_commits (s : State) (f : Link → Link) : (s.updLink f).commits = s.commits := rfl
@[simp] theorem State.updLink_notice (s : State) (f : Link → Link) : (s.updLink f).notice = s.notice := rfl
@[simp] theorem State.updLink_link (s : State) (f : Link → Link) :
    (s.updLink f).link = f s.link := rfl
@[simp] theorem State.updLink_timebase (s : State) (f : Link → Link) : (s.updLink f).timebase = s.timebase := rfl

/-! ### `updEntry` -/

@[simp] theorem State.updEntry_pending (s : State) (m : Fin 16) (id : Nat) (f : Entry → Entry) : (s.updEntry m id f).pending = s.pending := rfl
@[simp] theorem State.updEntry_edges (s : State) (m : Fin 16) (id : Nat) (f : Entry → Entry) : (s.updEntry m id f).edges = s.edges := rfl
@[simp] theorem State.updEntry_draws (s : State) (m : Fin 16) (id : Nat) (f : Entry → Entry) : (s.updEntry m id f).draws = s.draws := rfl
@[simp] theorem State.updEntry_nextId (s : State) (m : Fin 16) (id : Nat) (f : Entry → Entry) : (s.updEntry m id f).nextId = s.nextId := rfl
@[simp] theorem State.updEntry_intake (s : State) (m : Fin 16) (id : Nat) (f : Entry → Entry) : (s.updEntry m id f).intake = s.intake := rfl
@[simp] theorem State.updEntry_onBus (s : State) (m : Fin 16) (id : Nat) (f : Entry → Entry) : (s.updEntry m id f).onBus = s.onBus := rfl
@[simp] theorem State.updEntry_responses (s : State) (m : Fin 16) (id : Nat) (f : Entry → Entry) :
    (s.updEntry m id f).responses = upd s.responses m (List.map (fun e => if e.id = id then f e else e)) := rfl
@[simp] theorem State.updEntry_sent (s : State) (m : Fin 16) (id : Nat) (f : Entry → Entry) : (s.updEntry m id f).sent = s.sent := rfl
@[simp] theorem State.updEntry_places (s : State) (m : Fin 16) (id : Nat) (f : Entry → Entry) : (s.updEntry m id f).places = s.places := rfl
@[simp] theorem State.updEntry_lastGranted (s : State) (m : Fin 16) (id : Nat) (f : Entry → Entry) : (s.updEntry m id f).lastGranted = s.lastGranted := rfl
@[simp] theorem State.updEntry_windows (s : State) (m : Fin 16) (id : Nat) (f : Entry → Entry) : (s.updEntry m id f).windows = s.windows := rfl
@[simp] theorem State.updEntry_stallTimers (s : State) (m : Fin 16) (id : Nat) (f : Entry → Entry) : (s.updEntry m id f).stallTimers = s.stallTimers := rfl
@[simp] theorem State.updEntry_slots (s : State) (m : Fin 16) (id : Nat) (f : Entry → Entry) : (s.updEntry m id f).slots = s.slots := rfl
@[simp] theorem State.updEntry_rolls (s : State) (m : Fin 16) (id : Nat) (f : Entry → Entry) : (s.updEntry m id f).rolls = s.rolls := rfl
@[simp] theorem State.updEntry_consumers (s : State) (m : Fin 16) (id : Nat) (f : Entry → Entry) : (s.updEntry m id f).consumers = s.consumers := rfl
@[simp] theorem State.updEntry_views (s : State) (m : Fin 16) (id : Nat) (f : Entry → Entry) : (s.updEntry m id f).views = s.views := rfl
@[simp] theorem State.updEntry_copier (s : State) (m : Fin 16) (id : Nat) (f : Entry → Entry) : (s.updEntry m id f).copier = s.copier := rfl
@[simp] theorem State.updEntry_commits (s : State) (m : Fin 16) (id : Nat) (f : Entry → Entry) : (s.updEntry m id f).commits = s.commits := rfl
@[simp] theorem State.updEntry_notice (s : State) (m : Fin 16) (id : Nat) (f : Entry → Entry) : (s.updEntry m id f).notice = s.notice := rfl
@[simp] theorem State.updEntry_link (s : State) (m : Fin 16) (id : Nat) (f : Entry → Entry) : (s.updEntry m id f).link = s.link := rfl
@[simp] theorem State.updEntry_timebase (s : State) (m : Fin 16) (id : Nat) (f : Entry → Entry) : (s.updEntry m id f).timebase = s.timebase := rfl

end Sys2Proof.Machine
end

