-- ==== Sys2Proof/Laws/RequestPath.lean ====
section
/-! SUPPORT. The classification of a head request, said once: what leaving the intake queue changes, which test decides
(R6 to R12), and the states that the statements name, in the terms of the operations that make them. -/

namespace Sys2Proof.Machine

/-! ### Leaving the intake queue (R4) -/

theorem popIntake_eq (m : Fin 16) (s : State) :
    popIntake m s = { s with intake := (popIntake m s).intake, onBus := (popIntake m s).onBus } := by
  unfold popIntake
  cases s.onBus[m] <;> rfl

@[simp] theorem popIntake_pending (m : Fin 16) (s : State) : (popIntake m s).pending = s.pending := by
  rw [popIntake_eq]
@[simp] theorem popIntake_draws (m : Fin 16) (s : State) : (popIntake m s).draws = s.draws := by
  rw [popIntake_eq]
@[simp] theorem popIntake_nextId (m : Fin 16) (s : State) : (popIntake m s).nextId = s.nextId := by
  rw [popIntake_eq]
@[simp] theorem popIntake_responses (m : Fin 16) (s : State) : (popIntake m s).responses = s.responses := by
  rw [popIntake_eq]
@[simp] theorem popIntake_sent (m : Fin 16) (s : State) : (popIntake m s).sent = s.sent := by
  rw [popIntake_eq]
@[simp] theorem popIntake_places (m : Fin 16) (s : State) : (popIntake m s).places = s.places := by
  rw [popIntake_eq]
@[simp] theorem popIntake_lastGranted (m : Fin 16) (s : State) : (popIntake m s).lastGranted = s.lastGranted := by
  rw [popIntake_eq]
@[simp] theorem popIntake_windows (m : Fin 16) (s : State) : (popIntake m s).windows = s.windows := by
  rw [popIntake_eq]
@[simp] theorem popIntake_stallTimers (m : Fin 16) (s : State) : (popIntake m s).stallTimers = s.stallTimers := by
  rw [popIntake_eq]
@[simp] theorem popIntake_slots (m : Fin 16) (s : State) : (popIntake m s).slots = s.slots := by
  rw [popIntake_eq]
@[simp] theorem popIntake_rolls (m : Fin 16) (s : State) : (popIntake m s).rolls = s.rolls := by
  rw [popIntake_eq]
@[simp] theorem popIntake_consumers (m : Fin 16) (s : State) : (popIntake m s).consumers = s.consumers := by
  rw [popIntake_eq]
@[simp] theorem popIntake_views (m : Fin 16) (s : State) : (popIntake m s).views = s.views := by
  rw [popIntake_eq]
@[simp] theorem popIntake_copier (m : Fin 16) (s : State) : (popIntake m s).copier = s.copier := by
  rw [popIntake_eq]
@[simp] theorem popIntake_commits (m : Fin 16) (s : State) : (popIntake m s).commits = s.commits := by
  rw [popIntake_eq]
@[simp] theorem popIntake_notice (m : Fin 16) (s : State) : (popIntake m s).notice = s.notice := by
  rw [popIntake_eq]
@[simp] theorem popIntake_link (m : Fin 16) (s : State) : (popIntake m s).link = s.link := by
  rw [popIntake_eq]
@[simp] theorem popIntake_timebase (m : Fin 16) (s : State) : (popIntake m s).timebase = s.timebase := by
  rw [popIntake_eq]

/-- The head leaves, and the oldest request kept on the bus takes the freed place. -/
theorem popIntake_intake (m : Fin 16) (s : State) :
    (popIntake m s).intake = s.intake.set m (s.intake[m].tail ++ s.onBus[m].take 1) := by
  unfold popIntake
  cases h : s.onBus[m] <;> simp [upd]

theorem popIntake_onBus (m : Fin 16) (s : State) : (popIntake m s).onBus = s.onBus.set m (s.onBus[m].drop 1) := by
  unfold popIntake
  cases h : s.onBus[m] <;> simp [upd]
  simp at h
  rw [← h]
  simp

theorem popIntake_touched (m : Fin 16) (s : State) (r : Request) :
    touchedWindows r (popIntake m s) = touchedWindows r s := by
  rw [popIntake_eq]
  rfl

theorem popIntake_inside (m : Fin 16) (s : State) (r : Request) : insideWindow r (popIntake m s) = insideWindow r s := by
  rw [popIntake_eq]
  rfl

theorem popIntake_watched (m : Fin 16) (s : State) (r : Request) :
    isWatchedWrite r (popIntake m s) = isWatchedWrite r s := by
  rw [popIntake_eq]
  rfl

@[simp] theorem popIntake_definition (m : Fin 16) (s : State) (w : Fin 16) :
    (popIntake m s).definition w = s.definition w := by
  simp [State.definition]

@[simp] theorem popIntake_role (m : Fin 16) (s : State) (d : Definition) (m' : Fin 16) :
    (popIntake m s).role d m' = s.role d m' := by
  simp [State.role]

@[simp] theorem popIntake_work (m : Fin 16) (s : State) (w : Fin 16) (i : Fin 4) :
    (popIntake m s).work w i = s.work w i := by
  simp [State.work, State.slot]

@[simp] theorem popIntake_view (m : Fin 16) (s : State) (w : Fin 16) (c : Fin 8) :
    (popIntake m s).view w c = s.view w c := by
  simp [State.view]

@[simp] theorem popIntake_generation (m : Fin 16) (s : State) (w : Fin 16) (i : Fin 4) :
    (popIntake m s).generation w i = s.generation w i := by
  simp [State.generation, State.slot]

/-! ### Which test decides (R6 to R11) -/

/-- A head that may be classified, crosses no boundary and is not held by the RESETTING test is put to the tests of
section 1.3. -/
theorem classification_eq {m : Fin 16} {r : Request} {s : State} (h : s.mayTake m r) (hc : crossesPage r = false)
    (hp : s.link.part = .running ∨ touchedWindows r s = []) :
    exec (.classification m) s = .next (classifyHead m r (popIntake m s)) := by
  obtain ⟨⟨rest, h1⟩, h2, h3⟩ := h
  have h3' : mayClassify s m = true := by
    simp only [mayClassify, h2, Config.responseDepth]
    simpa using h3
  simp only [exec, execClassification, classify, h1]
  rw [if_neg (by simp [h3']), if_neg (by simp [hc]), if_neg]
  rintro ⟨a, b⟩
  rcases hp with hp | hp
  · rw [hp] at a
    cases a
  · exact b hp

theorem insideWindow_mem {r : Request} {s : State} {w : Fin 16} (h : insideWindow r s = some w) :
    w ∈ touchedWindows r s := List.mem_of_find?_eq_some h

/-- A window request goes to its window. -/
theorem windowHead_classification {m : Fin 16} {r : Request} {w : Fin 16} {d : Definition} {s : State}
    (h : s.windowHead m r w d) : exec (.classification m) s = .next (windowRequest m w r (popIntake m s)) := by
  obtain ⟨h1, h2, h3, h4, h5, h6⟩ := h
  rw [classification_eq h1 h2 (.inl h3)]
  simp only [classifyHead, popIntake_touched, popIntake_inside, popIntake_watched, h4, h5]
  cases touchedWindows r s <;> simp

/-- A window request that its window's state does not refuse is mapped by the owner of the mapping. -/
theorem windowHead_mapped {m : Fin 16} {r : Request} {w : Fin 16} {d : Definition} {s : State}
    (h : s.windowHead m r w d) (hs : stateRefusal s.windows[w].state r.kind = none) :
    exec (.classification m) s = .next (mapWindowRequest m w r (popIntake m s)) := by
  rw [windowHead_classification h]
  simp only [windowRequest, popIntake_windows, hs]

/-! ### The states that the statements name -/

theorem refuseHead_popIntake (m : Fin 16) (r : Request) (w : Option (Fin 16)) (reason : Reason) (s : State) :
    refuseHead m r w reason (popIntake m s) = s.refused m r w reason := by
  simp [refuseHead, post, State.updNotice, enter, State.refused, upd]

theorem enterWaiting_popIntake (m : Fin 16) (r : Request) (w : Fin 16) (wait : Wait) (pieces : List Piece) (s : State) :
    enterWaiting m r w wait pieces (popIntake m s) = s.admitted m r w wait pieces false := by
  simp [enterWaiting, enter, State.updWindow, State.admitted, upd, newEntry]

theorem State.updSlot_onSlots (s : State) (w : Fin 16) (i : Fin 4) (f : Slot → Slot) :
    s.updSlot w i f = s.onSlots w (fun u => u.onSlot i f) := rfl

theorem SlotUnit.onSlot_onSlot (u : SlotUnit) (i : Fin 4) (f g : Slot → Slot) :
    (u.onSlot i f).onSlot i g = u.onSlot i (fun x => g (f x)) := by
  simp [SlotUnit.onSlot, Function.comp_def]

theorem State.onSlots_onSlots (s : State) (w : Fin 16) (f g : SlotUnit → SlotUnit) :
    (s.onSlots w f).onSlots w g = s.onSlots w (fun u => g (f u)) := by
  simp [State.onSlots, Function.comp_def]

theorem SlotUnit.onSlot_id (u : SlotUnit) (i : Fin 4) (f : Slot → Slot) (h : ∀ x, f x = x) : u.onSlot i f = u := by
  have : f = id := funext h
  subst this
  simp [SlotUnit.onSlot]

theorem State.updView_get (s : State) (w : Fin 16) (c : Fin 8) (f : View → View) :
    (s.updView w c f).view w c = (s.view w c).map f := by
  simp [State.updView, State.view, upd]

theorem State.updView_updView (s : State) (w : Fin 16) (c : Fin 8) (f g : View → View) :
    (s.updView w c f).updView w c g = s.updView w c (fun v => g (f v)) := by
  simp [State.updView, upd, Function.comp_def]

/-- Two changes of a view that agree on it are one. -/
theorem State.updView_congr {s : State} {w : Fin 16} {c : Fin 8} {f g : View → View} {v : View}
    (h : s.view w c = some v) (hfg : f v = g v) : s.updView w c f = s.updView w c g := by
  simp only [State.view] at h
  simp only [State.updView, upd]
  simp at h
  simp [h, hfg]

/-- A consumer's read restarts its view's idle timer when the idle limit is not 0 (R116). -/
theorem restartIdle_eq {w : Fin 16} {c : Fin 8} {b : Binding} {s : State} (h : s.consumers[c] = some b) :
    restartIdle w c s = s.updView w c (fun v => { v with timer := if b.idle = 0 then v.timer else some s.timebase }) := by
  have : s.idleLimit c = b.idle := by simp only [State.idleLimit, h]
  simp only [restartIdle, this]
  split
  · simp [State.updView, upd]
  · rfl

/-! ### Pieces (R14) and their capture (R49) -/

theorem cut_cases (d : Definition) (r : Request) : (∃ p, cut d r = [p]) ∨ ∃ p q, cut d r = [p, q] := by
  unfold cut
  extract_lets b n
  split
  · exact .inl ⟨_, rfl⟩
  · exact .inr ⟨_, _, rfl⟩

/-- The pieces of a request that all reach one slot are counted there together. -/
theorem captureSlots_same (w : Fin 16) (d : Definition) (r : Request) (i : Fin 4) (s : State) :
    captureSlots w ((cut d r).map (mapToSlot d i)) s =
      s.onSlots w (fun u => u.onSlot i (fun x => { x with waiting := x.waiting + (cut d r).length })) := by
  rcases cut_cases d r with ⟨p, h⟩ | ⟨p, q, h⟩ <;> rw [h]
  · simp [captureSlots, mapToSlot, State.updSlot_onSlots]
  · simp [captureSlots, mapToSlot, State.updSlot_onSlots, State.onSlots_onSlots, SlotUnit.onSlot_onSlot, Nat.add_assoc]

/-! ### Notices (R139) -/

/-- Everything a posting can do to the notice unit: nothing, one notice more pending, or one more lost. -/
theorem NoticeUnit.take_cases (n : NoticeUnit) (b : NoticeBody) (now : Micros) :
    n.take b now = n ∨ n.take b now = { n with pending := n.pending ++ [⟨b, now⟩] } ∨
    n.take b now = { n with lost := min 255 (n.lost + 1) } := by
  unfold NoticeUnit.take
  split
  · exact .inl rfl
  split
  · exact .inl rfl
  split
  · exact .inr (.inr rfl)
  · exact .inr (.inl rfl)

end Sys2Proof.Machine
end

