-- ==== Sys2Proof/Laws/Works.lean ====
section
/-! SUPPORT. What the working parts of the part (slot manager, roll unit, view unit, copier, commit unit) can do to the
whole state, said once as the relation `Works`, and one lemma per shared operation. -/

namespace Sys2Proof.Machine

/-- `n'` is the notice unit `n` after some postings at timebase count `now`. -/
def Posts (now : Micros) (n n' : NoticeUnit) : Prop :=
  ∃ bs : List NoticeBody, n' = bs.foldl (fun n b => n.take b now) n

theorem Posts.refl (now : Micros) (n : NoticeUnit) : Posts now n n := ⟨[], rfl⟩

theorem Posts.trans {now : Micros} {a b c : NoticeUnit} : Posts now a b → Posts now b c → Posts now a c := by
  rintro ⟨x, rfl⟩ ⟨y, rfl⟩
  exact ⟨x ++ y, by rw [List.foldl_append]⟩

theorem Posts.one (now : Micros) (n : NoticeUnit) (b : NoticeBody) : Posts now n (n.take b now) := ⟨[b], rfl⟩

/-- What names an entry for good: its number, its request and its window. -/
def Entry.name (e : Entry) : Nat × Request × Option (Fin 16) := (e.id, e.request, e.window)

/-- From `s` to `t` only working state moved: the two ports' queues and places, bindings, link and timebase are the same,
no definition changed, no entry came, left or changed its request or window, no further entry waits, notices were only
posted, and a well-formed commit unit stayed so. -/
structure Works (s t : State) : Prop where
  pending     : t.pending = s.pending
  edges       : t.edges = s.edges
  nextId      : t.nextId = s.nextId
  intake      : t.intake = s.intake
  onBus       : t.onBus = s.onBus
  sent        : t.sent = s.sent
  places      : t.places = s.places
  lastGranted : t.lastGranted = s.lastGranted
  consumers   : t.consumers = s.consumers
  link        : t.link = s.link
  timebase    : t.timebase = s.timebase
  definition  : ∀ w : Fin 16, t.windows[w].definition = s.windows[w].definition
  entries     : ∀ m : Fin 16, t.responses[m].map Entry.name = s.responses[m].map Entry.name
  waiting     : ∀ m : Fin 16, (s.responses[m].map Entry.id).Nodup →
                  t.responses[m].countP Entry.isWaiting ≤ s.responses[m].countP Entry.isWaiting
  notice      : Posts s.timebase s.notice t.notice
  commits     : ∀ w : Fin 16, s.commits[w].wf → t.commits[w].wf

theorem map_id_of_name {l k : List Entry} (h : l.map Entry.name = k.map Entry.name) :
    l.map Entry.id = k.map Entry.id := by
  have := congrArg (List.map Prod.fst) h
  simpa [List.map_map, Function.comp_def, Entry.name] using this

namespace Works

theorem refl (s : State) : Works s s :=
  ⟨rfl, rfl, rfl, rfl, rfl, rfl, rfl, rfl, rfl, rfl, rfl, fun _ => rfl, fun _ => rfl, fun _ _ => Nat.le_refl _, .refl _ _,
    fun _ h => h⟩

theorem trans {s t u : State} (a : Works s t) (b : Works t u) : Works s u where
  pending := b.pending.trans a.pending
  edges := b.edges.trans a.edges
  nextId := b.nextId.trans a.nextId
  intake := b.intake.trans a.intake
  onBus := b.onBus.trans a.onBus
  sent := b.sent.trans a.sent
  places := b.places.trans a.places
  lastGranted := b.lastGranted.trans a.lastGranted
  consumers := b.consumers.trans a.consumers
  link := b.link.trans a.link
  timebase := b.timebase.trans a.timebase
  definition w := (b.definition w).trans (a.definition w)
  entries m := (b.entries m).trans (a.entries m)
  waiting m h := (b.waiting m (map_id_of_name (a.entries m) ▸ h)).trans (a.waiting m h)
  notice := a.notice.trans (a.timebase ▸ b.notice)
  commits w h := b.commits w (a.commits w h)

/-- A change of the timers, slots, rolls, views, copier and draws alone. -/
theorem of_tables {s t : State}
    (h : t = { s with
      stallTimers := t.stallTimers, slots := t.slots, rolls := t.rolls, views := t.views, copier := t.copier,
      draws := t.draws }) : Works s t := by
  rw [h]
  exact ⟨rfl, rfl, rfl, rfl, rfl, rfl, rfl, rfl, rfl, rfl, rfl, fun _ => rfl, fun _ => rfl, fun _ _ => Nat.le_refl _,
    .refl _ _, fun _ h => h⟩

/-- A change of one window table entry that keeps its definition. -/
theorem updWindow (s : State) (w : Fin 16) (f : Window → Window) (h : ∀ x, (f x).definition = x.definition) :
    Works s (s.updWindow w f) := by
  refine ⟨rfl, rfl, rfl, rfl, rfl, rfl, rfl, rfl, rfl, rfl, rfl, fun j => ?_, fun _ => rfl, fun _ _ => Nat.le_refl _,
    .refl _ _, fun _ h => h⟩
  rw [State.updWindow_windows, upd_get]
  split
  · next e => subst e; exact h _
  · rfl

/-- A change of one commit unit's state that keeps it well formed. -/
theorem updCommits (s : State) (w : Fin 16) (f : CommitState → CommitState)
    (h : s.commits[w].wf → (f s.commits[w]).wf) : Works s (s.updCommits w f) := by
  refine ⟨rfl, rfl, rfl, rfl, rfl, rfl, rfl, rfl, rfl, rfl, rfl, fun _ => rfl, fun _ => rfl, fun _ _ => Nat.le_refl _,
    .refl _ _, fun j hj => ?_⟩
  rw [State.updCommits_commits, upd_get]
  split
  · next e => subst e; exact h hj
  · exact hj

/-- A change of the response lists, entry by entry, that keeps names and makes no entry wait. -/
theorem mapEntries (s : State) (f : Entry → Entry) (hn : ∀ e, (f e).name = e.name)
    (hw : ∀ e, (f e).isWaiting = true → e.isWaiting = true) :
    Works s { s with responses := s.responses.map (List.map f) } := by
  refine ⟨rfl, rfl, rfl, rfl, rfl, rfl, rfl, rfl, rfl, rfl, rfl, fun _ => rfl, fun m => ?_, fun m _ => ?_, .refl _ _,
    fun _ h => h⟩
  · simp [Function.comp_def, hn]
  · simp only [Fin.getElem_fin, Vector.getElem_map, List.countP_map]
    exact List.countP_mono_left (fun e _ h => hw e h)

theorem name_ite {f : Entry → Entry} (hn : ∀ e, (f e).name = e.name) (id : Nat) (e : Entry) :
    (if e.id = id then f e else e).name = e.name := by
  split
  · exact hn e
  · rfl

/-- A change of one entry that keeps names and makes no entry wait. -/
theorem updEntry (s : State) (m : Fin 16) (id : Nat) (f : Entry → Entry) (hn : ∀ e, (f e).name = e.name)
    (hw : ∀ e, (f e).isWaiting = true → e.isWaiting = true) : Works s (s.updEntry m id f) := by
  refine ⟨rfl, rfl, rfl, rfl, rfl, rfl, rfl, rfl, rfl, rfl, rfl, fun _ => rfl, fun j => ?_, fun j _ => ?_, .refl _ _,
    fun _ h => h⟩
  · rw [State.updEntry_responses, upd_get]
    split
    · next e => subst e; simp [Function.comp_def, name_ite hn]
    · rfl
  · rw [State.updEntry_responses, upd_get]
    split
    · next e =>
      subst e
      rw [List.countP_map]
      refine List.countP_mono_left (fun e _ h => ?_)
      simp only [Function.comp_apply] at h
      split at h
      · exact hw e h
      · exact h
    · exact Nat.le_refl _

/-- At most one entry of a list with distinct numbers has a given number; changing it, when it waits, adds no waiting
entry. -/
theorem countP_change {l : List Entry} (hd : (l.map Entry.id).Nodup) {x : Entry} (hx : x ∈ l)
    (hwait : x.isWaiting = true) (f : Entry → Entry) :
    (l.map (fun e => if e.id = x.id then f e else e)).countP Entry.isWaiting ≤ l.countP Entry.isWaiting := by
  rw [List.countP_map]
  refine List.countP_mono_left (fun e he h => ?_)
  simp only [Function.comp_apply] at h
  split at h
  · next hid => exact (List.inj_on_of_nodup_map hd he hx hid) ▸ hwait
  · exact h

/-- A change of a master's current request that keeps names. -/
theorem updCurrent (s : State) (m : Fin 16) (e : Entry) (he : s.current m = some e) (f : Entry → Entry)
    (hn : ∀ e, (f e).name = e.name) : Works s (s.updEntry m e.id f) := by
  refine ⟨rfl, rfl, rfl, rfl, rfl, rfl, rfl, rfl, rfl, rfl, rfl, fun _ => rfl, fun j => ?_, fun j hd => ?_, .refl _ _,
    fun _ h => h⟩
  · rw [State.updEntry_responses, upd_get]
    split
    · next e => subst e; simp [Function.comp_def, name_ite hn]
    · rfl
  · rw [State.updEntry_responses, upd_get]
    split
    · next h =>
      subst h
      exact countP_change hd (List.mem_of_find?_eq_some he) (List.find?_some he) f
    · exact Nat.le_refl _

theorem post (s : State) (b : NoticeBody) : Works s (Machine.post b s) :=
  ⟨rfl, rfl, rfl, rfl, rfl, rfl, rfl, rfl, rfl, rfl, rfl, fun _ => rfl, fun _ => rfl, fun _ _ => Nat.le_refl _, .one _ _ _,
    fun _ h => h⟩

theorem foldl {α : Type} (f : State → α → State) (h : ∀ t x, Works t (f t x)) (l : List α) (s : State) :
    Works s (l.foldl f s) := by
  induction l generalizing s with
  | nil => exact refl s
  | cons x l ih => exact (h s x).trans (ih _)

theorem forMasters (f : Fin 16 → State → State) (h : ∀ m t, Works t (f m t)) (s : State) :
    Works s (Machine.forMasters f s) := foldl _ (fun t m => h m t) _ s

theorem forWindows (f : Fin 16 → State → State) (h : ∀ m t, Works t (f m t)) (s : State) :
    Works s (Machine.forWindows f s) := foldl _ (fun t m => h m t) _ s

theorem forConsumers (f : Fin 8 → State → State) (h : ∀ m t, Works t (f m t)) (s : State) :
    Works s (Machine.forConsumers f s) := foldl _ (fun t m => h m t) _ s

end Works

end Sys2Proof.Machine
end

