-- ==== Sys2Proof/Laws/WorksCopier.lean ====
section
/-! SUPPORT. `Works` for the shared operations of the copier, the slot manager, the roll unit and the view unit. -/

namespace Sys2Proof.Machine

/-! ### Timers and tallies -/

theorem works_stopTimer (m : Fin 16) (s : State) : Works s (stopTimer m s) := .of_tables rfl

theorem works_startTimer (m w : Fin 16) (s : State) : Works s (startTimer m w s) := by
  unfold startTimer
  split
  · exact .refl s
  · exact .of_tables rfl

theorem works_lowerWaiting (w : Fin 16) (s : State) : Works s (lowerWaiting w s) :=
  Works.updWindow s w _ (fun _ => rfl)

theorem works_lowerDrain (w : Fin 16) (s : State) : Works s (lowerDrain w s) :=
  Works.updCommits s w _ (fun h => by simpa [CommitState.wf] using h)

/-! ### The copier -/

theorem works_updSlot (s : State) (w : Fin 16) (i : Fin 4) (f : Slot → Slot) : Works s (s.updSlot w i f) :=
  .of_tables rfl

theorem works_updSlotUnit (s : State) (w : Fin 16) (f : SlotUnit → SlotUnit) : Works s (s.updSlotUnit w f) :=
  .of_tables rfl

theorem works_updRoll (s : State) (w : Fin 16) (f : RollState → RollState) : Works s (s.updRoll w f) := .of_tables rfl

theorem works_updView (s : State) (w : Fin 16) (c : Fin 8) (f : View → View) : Works s (s.updView w c f) :=
  .of_tables rfl

theorem works_updCopier (s : State) (f : Copier → Copier) : Works s (s.updCopier f) := .of_tables rfl

theorem works_updCopy (s : State) (f : Copy → Copy) : Works s (s.updCopy f) := .of_tables rfl

theorem works_setBlock (w : Fin 16) (i : Fin 4) (b : Nat) (x : BlockState) (s : State) : Works s (setBlock w i b x s) :=
  .of_tables rfl

theorem works_startCopy (w : Fin 16) (i : Fin 4) (b : Nat) (s : State) : Works s (startCopy w i b s) := by
  unfold startCopy
  split
  · exact .refl s
  · exact (works_setBlock _ _ _ _ s).trans (works_updCopier _ _)

theorem works_kickCopier (s : State) : Works s (kickCopier s) := by
  unfold kickCopier
  split
  · exact .refl s
  split
  · exact .refl s
  split
  · exact (works_updCopier s _).trans (works_startCopy _ _ _ _)
  split
  · exact .refl s
  split
  · exact .refl s
  split
  · exact .refl s
  · exact (works_updCopier s _).trans (works_startCopy _ _ _ _)

theorem works_addUrgent (u : Urgent) (s : State) : Works s (addUrgent u s) := by
  unfold addUrgent
  split
  · exact .refl s
  · exact (works_updCopier s _).trans (works_kickCopier _)

theorem works_listFirstNeedsCopy (w : Fin 16) (i : Fin 4) (pieces : List Piece) (s : State) :
    Works s (listFirstNeedsCopy w i pieces s) := by
  unfold listFirstNeedsCopy
  split
  · exact .refl s
  · exact works_addUrgent _ s

theorem works_createJob (w : Fin 16) (i : Fin 4) (s : State) : Works s (createJob w i s) := by
  unfold createJob
  split
  · exact .refl s
  · exact (works_updCopier s _).trans (works_kickCopier _)

/-- R88: a copier stopped by a soft reset starts no copy. -/
theorem kickCopier_resetting {s : State} (h : s.link.part = .resetting) : kickCopier s = s := by
  simp [kickCopier, h]

/-- R88: a copier stopped by a soft reset takes no urgent entry. -/
theorem addUrgent_resetting {s : State} (u : Urgent) (h : s.link.part = .resetting) : addUrgent u s = s := by
  simp [addUrgent, h]

/-- R88: a copier stopped by a soft reset takes no backfill job. -/
theorem createJob_resetting {s : State} (w : Fin 16) (i : Fin 4) (h : s.link.part = .resetting) :
    createJob w i s = s := by
  simp [createJob, h]

theorem works_removeJob (w : Fin 16) (s : State) : Works s (removeJob w s) := works_updCopier s _

theorem works_endDropped (s : State) : Works s (endDropped s) := by
  unfold endDropped
  split
  · exact .refl s
  split
  · exact .refl s
  split
  · exact .refl s
  refine Works.trans ?_ ((works_updCopier _ _).trans (works_kickCopier _))
  split
  · split
    · exact works_setBlock _ _ _ _ s
    · exact .refl s
  · exact .refl s

theorem works_dropMarks (w : Fin 16) (s : State) : Works s (dropMarks w s) :=
  (works_removeJob w s).trans (works_updCopier _ _)

theorem works_dropJobs (w : Fin 16) (s : State) : Works s (dropJobs w s) :=
  (works_dropMarks w s).trans (works_endDropped _)

/-! ### The slot manager -/

theorem works_captureSlots (w : Fin 16) (pieces : List Piece) (s : State) : Works s (captureSlots w pieces s) := by
  refine Works.foldl _ (fun t p => ?_) pieces s
  split
  · exact works_updSlot _ _ _ _
  · exact .refl t

theorem works_mapWaitingToSlot (m w : Fin 16) (i : Fin 4) (s : State) : Works s (mapWaitingToSlot m w i s) := by
  unfold mapWaitingToSlot
  split
  · next e d k he _ _ =>
    extract_lets pieces t
    have ht : Works s t := Works.updCurrent s m e he _ (fun _ => rfl)
    refine Works.trans ?_ (works_listFirstNeedsCopy _ _ _ _)
    exact ht.trans ((works_stopTimer m t).trans (works_captureSlots w pieces _))
  · exact .refl s

theorem works_mapSlotWaits (w : Fin 16) (i : Fin 4) (s : State) : Works s (mapSlotWaits w i s) := by
  refine Works.forMasters _ (fun m t => ?_) s
  split
  · exact .refl t
  split
  · exact works_mapWaitingToSlot _ _ _ _
  · exact .refl t

theorem works_allocateSlot (w : Fin 16) (d : Definition) (u : SlotUnit) (i : Fin 4) (s : State) :
    Works s (allocateSlot w d u i s) := by
  unfold allocateSlot
  extract_lets t v
  have ht : Works s t := (works_updSlot s _ _ _).trans (works_updSlotUnit _ _ _)
  refine ht.trans (Works.trans (t := v) ?_ (works_mapSlotWaits _ _ _))
  unfold v
  split
  · exact (works_updSlot _ _ _ _).trans (works_createJob _ _ _)
  · exact .refl _

/-- An allocation attempt moves working state only (R46, R47). -/
theorem works_allocate (w : Fin 16) (s : State) : Works s (allocate w s) := by
  unfold allocate
  split
  · exact .refl s
  split
  · split
    · exact .refl s
    split
    · exact .refl s
    · exact works_allocateSlot _ _ _ _ _
  · exact .refl s

theorem works_retire (w : Fin 16) (i : Fin 4) (s : State) : Works s (retire w i s) := by
  unfold retire
  split
  · split
    · split
      · exact (works_updSlot _ _ _ _).trans (works_allocate _ _)
      · exact works_updSlot _ _ _ _
    · exact .refl s
  · exact .refl s

theorem works_freeRetiring (w : Fin 16) (i : Fin 4) (s : State) : Works s (freeRetiring w i s) := by
  unfold freeRetiring
  split
  · exact .refl s
  split
  · exact (works_updSlot _ _ _ _).trans (works_allocate _ _)
  · exact .refl s

theorem works_lowerSlotInFlight (w : Fin 16) (i : Fin 4) (s : State) : Works s (lowerSlotInFlight w i s) :=
  (works_updSlot _ _ _ _).trans (works_freeRetiring _ _ _)

theorem works_lowerSlotWaiting (w : Fin 16) (i : Fin 4) (s : State) : Works s (lowerSlotWaiting w i s) :=
  (works_updSlot _ _ _ _).trans (works_freeRetiring _ _ _)

theorem works_issueToSlot (w : Fin 16) (i : Fin 4) (s : State) : Works s (issueToSlot w i s) := works_updSlot _ _ _ _

theorem works_markWritten (w : Fin 16) (i : Fin 4) (b : Nat) (s : State) : Works s (markWritten w i b s) :=
  works_updSlot _ _ _ _

/-- A discard moves working state only (R63). -/
theorem works_discardSlot (w : Fin 16) (i : Fin 4) (s : State) : Works s (discardSlot w i s) := by
  unfold discardSlot
  extract_lets src t v
  have hv : Works s v := (works_updSlotUnit s _ _).trans (works_updSlot _ _ _ _)
  refine hv.trans ?_
  cases src with
  | none => exact .refl _
  | some f => exact (works_updSlot _ _ _ _).trans (works_retire _ _ _)

theorem works_startSlotTimers (w : Fin 16) (s : State) : Works s (startSlotTimers w s) := by
  unfold startSlotTimers
  split
  · exact .refl s
  split
  · exact .refl s
  refine Works.forMasters _ (fun m t => ?_) s
  split
  · exact .refl t
  · next e he =>
    split
    · refine Works.trans ?_ (works_startTimer _ _ _)
      exact Works.updCurrent t m e he _ (fun _ => rfl)
    · exact .refl t

/-! ### The roll unit -/

theorem works_mapWaitingToRing (m w : Fin 16) (s : State) : Works s (mapWaitingToRing m w s) := by
  unfold mapWaitingToRing
  split
  · next e d u he _ _ =>
    extract_lets pieces t
    have ht : Works s t := Works.updCurrent s m e he _ (fun _ => rfl)
    refine ht.trans ?_
    split
    · exact works_startTimer _ _ _
    · exact .refl _
  · exact .refl s

theorem works_captureReads (w : Fin 16) (pieces : List Piece) (s : State) : Works s (captureReads w pieces s) := by
  refine Works.foldl _ (fun t p => ?_) pieces s
  split
  · exact works_updRoll _ _ _
  · exact .refl t

/-- The release of visibility waits moves working state only (R98). -/
theorem works_releaseVisibility (w : Fin 16) (s : State) : Works s (releaseVisibility w s) := by
  unfold releaseVisibility
  split
  · split
    · exact .refl s
    refine Works.forMasters _ (fun m t => ?_) s
    split
    · exact .refl t
    · next e he =>
      split
      · exact Works.trans (Works.updCurrent t m e he Entry.clearVisibility (fun _ => rfl)) (works_stopTimer _ _)
      · exact .refl t
  · exact .refl s

theorem works_lowerRead (w : Fin 16) (q : Nat) (s : State) : Works s (lowerRead w q s) := by
  unfold lowerRead
  extract_lets t
  have ht : Works s t := works_updRoll s _ _
  refine ht.trans ?_
  split
  · split
    · exact works_releaseVisibility _ _
    · exact .refl _
  · exact .refl _

theorem works_leaveSeeing (w : Fin 16) (s : State) : Works s (leaveSeeing w s) :=
  (works_updRoll _ _ _).trans (works_releaseVisibility _ _)

/-! ### The view unit -/

theorem works_pinSlot (w : Fin 16) (i : Fin 4) (s : State) : Works s (pinSlot w i s) := works_updSlot _ _ _ _

theorem works_unpinSlot (w : Fin 16) (i : Fin 4) (s : State) : Works s (unpinSlot w i s) :=
  (works_updSlot _ _ _ _).trans (works_retire _ _ _)

theorem works_restartIdle (w : Fin 16) (c : Fin 8) (s : State) : Works s (restartIdle w c s) := by
  unfold restartIdle
  split
  · exact .refl s
  · exact works_updView _ _ _ _

theorem works_pinFront (w : Fin 16) (s : State) : Works s (pinFront w s) := by
  unfold pinFront
  split
  · exact works_pinSlot _ _ _
  · exact .refl s

theorem works_movePin (w : Fin 16) (c : Fin 8) (s : State) : Works s (movePin w c s) := by
  unfold movePin
  split
  · exact .refl s
  extract_lets t
  have ht : Works s t := works_updView s _ _ _
  refine ht.trans ?_
  split
  · split
    · split
      · exact .refl _
      · exact (works_unpinSlot _ _ _).trans (works_pinSlot _ _ _)
    · exact .refl _
  · split
    · exact works_leaveSeeing _ _
    · exact .refl _
  · exact works_pinFront _ _
  · exact works_pinFront _ _

/-- A frame start moves working state only (R111, R112). -/
theorem works_frameStart (w : Fin 16) (c : Fin 8) (s : State) : Works s (frameStart w c s) :=
  (works_movePin _ _ _).trans ((works_updView _ _ _ _).trans (works_restartIdle _ _ _))

theorem works_latePin (w : Fin 16) (c : Fin 8) (s : State) : Works s (latePin w c s) :=
  (works_movePin _ _ _).trans (works_restartIdle _ _ _)

theorem works_consumerRead (w : Fin 16) (c : Fin 8) (first last : Nat) (s : State) :
    Works s (consumerRead w c first last s) := by
  unfold consumerRead
  split
  · next b v _ _ =>
    have h1 : Works s (if startsFrame b.source v first then frameStart w c s
        else if v.state = .unpinned then latePin w c s else s) := by
      split
      · exact works_frameStart _ _ _
      split
      · exact works_latePin _ _ _
      · exact .refl s
    extract_lets t v
    have hv : Works s v := h1.trans (works_restartIdle _ _ _)
    refine hv.trans ?_
    split
    · exact works_updView _ _ _ _
    · exact .refl _
  · exact .refl s

theorem works_givePinUp (w : Fin 16) (held : ViewState) (s : State) : Works s (givePinUp w held s) := by
  unfold givePinUp
  split
  · exact works_unpinSlot _ _ _
  · split
    · exact works_leaveSeeing _ _
    · exact .refl s
  · exact .refl s

theorem works_tearView (w : Fin 16) (c : Fin 8) (s : State) : Works s (tearView w c s) := by
  unfold tearView
  split
  · exact .refl s
  · exact (works_updView _ _ _ _).trans ((works_givePinUp _ _ _).trans (Works.post _ _))

theorem works_tearSlot (w : Fin 16) (i : Fin 4) (s : State) : Works s (tearSlot w i s) := by
  refine Works.forConsumers _ (fun c t => ?_) s
  split
  · exact works_tearView _ _ _
  · exact .refl t

theorem works_tearSeeing (w : Fin 16) (s : State) : Works s (tearSeeing w s) := by
  refine Works.forConsumers _ (fun c t => ?_) s
  split
  · exact works_tearView _ _ _
  · exact .refl t

/-- An idle release moves working state only (R116). -/
theorem works_idleRelease (w : Fin 16) (c : Fin 8) (s : State) : Works s (idleRelease w c s) := by
  unfold idleRelease
  split
  · exact .refl s
  extract_lets t
  have ht : Works s t := works_updView s _ _ _
  refine ht.trans ?_
  split
  · exact .refl _
  · exact .refl _
  · exact (works_givePinUp _ _ _).trans (Works.post _ _)

end Sys2Proof.Machine
end

