-- ==== Sys2Proof/Laws/WorksCommits.lean ====
section
/-! SUPPORT. `Works` for the shared operations of waits, publication, the commit unit and the window controller, down to
the transitions of a window. -/

namespace Sys2Proof.Machine

/-! ### Waits -/

theorem works_forgetPiece (w : Fin 16) (p : Piece) (s : State) : Works s (forgetPiece w p s) := by
  unfold forgetPiece
  split
  · exact .refl s
  split
  · exact .refl s
  · exact works_lowerSlotWaiting _ _ _
  · exact .refl s
  · exact works_lowerRead _ _ _

/-- An answer from a wait moves working state only (R15). -/
theorem works_answerWaiting (m : Fin 16) (reason : Reason) (s : State) : Works s (answerWaiting m reason s) := by
  unfold answerWaiting
  split
  · exact .refl s
  · next e he =>
    extract_lets t
    have ht : Works s t := by
      refine Works.trans ?_ (works_stopTimer _ _)
      exact Works.updCurrent s m e he _ (fun _ => rfl)
    split
    · exact ht
    · next w _ =>
      extract_lets a b c
      have hb : Works a b := by
        unfold b
        split
        · exact works_lowerDrain _ _
        · exact .refl _
      have hc : Works s c := ht.trans ((works_lowerWaiting w t).trans (hb.trans (Works.post _ _)))
      exact hc.trans (Works.foldl _ (fun t p => works_forgetPiece _ _ _) _ _)

theorem works_answerAll (test : Entry → Bool) (reason : Reason) (s : State) : Works s (answerAll test reason s) := by
  refine Works.forMasters _ (fun m t => ?_) s
  split
  · exact .refl t
  split
  · exact works_answerWaiting _ _ _
  · exact .refl t

/-- The placing of a producer write moves working state only (R51, R94). -/
theorem works_placeWrite (m w : Fin 16) (s : State) : Works s (placeWrite m w s) := by
  unfold placeWrite
  split
  · exact .refl s
  · next e he =>
    split
    · exact Works.updCurrent s m e he _ (fun _ => rfl)
    split
    · exact works_mapWaitingToRing _ _ _
    split
    · exact works_mapWaitingToSlot _ _ _ _
    split
    · refine Works.trans ?_ (works_startTimer _ _ _)
      exact Works.updCurrent s m e he _ (fun _ => rfl)
    · exact Works.updCurrent s m e he _ (fun _ => rfl)

theorem works_reclassifyFenced (w : Fin 16) (s : State) : Works s (reclassifyFenced w s) := by
  refine Works.forMasters _ (fun m t => ?_) s
  split
  · exact .refl t
  split
  · split
    · exact works_answerWaiting _ _ _
    · exact works_placeWrite _ _ _
  · exact .refl t

/-! ### Publication -/

theorem works_freeGeneration (w : Fin 16) (g : BitVec 32) (s : State) : Works s (freeGeneration w g s) := by
  unfold freeGeneration
  split
  · exact .refl s
  split
  · exact .refl s
  · exact (works_tearSlot _ _ _).trans (works_retire _ _ _)

/-- A publication moves working state only (R58). -/
theorem works_publishSlot (w : Fin 16) (i : Fin 4) (tag : BitVec 16) (s : State) : Works s (publishSlot w i tag s) := by
  unfold publishSlot
  split
  · exact .refl s
  · extract_lets g source a b c d e
    have hb : Works s b :=
      (works_freeGeneration w g s).trans ((works_updSlotUnit a _ _).trans (works_updSlot _ _ _ _))
    have hd : Works c d := by
      unfold d
      cases source with
      | none => exact .refl _
      | some f => exact works_updSlot _ _ _ _
    exact (hb.trans (works_removeJob w b)).trans
      (hd.trans ((works_retire _ _ d).trans ((Works.post _ _).trans (works_allocate _ _))))

theorem works_sealSlot (w : Fin 16) (i : Fin 4) (tag : BitVec 16) (s : State) : Works s (sealSlot w i tag s) :=
  (works_updSlotUnit s _ _).trans (works_updSlot _ _ _ _)

theorem works_discardTake (w : Fin 16) (reason : Reason) (missing : Nat) (c : Commit) (s : State) :
    Works s (discardTake w reason missing c s).1 := Works.post s _

theorem works_takePublish (w : Fin 16) (c : Commit) (s : State) : Works s (takePublish w c s).1 := by
  unfold takePublish
  split
  · split
    · exact works_discardTake _ _ _ _ _
    split
    · exact works_discardTake _ _ _ _ _
    split
    · exact works_discardTake _ _ _ _ _
    split
    · exact works_sealSlot _ _ _ _
    · exact works_publishSlot _ _ _ _
  · exact works_discardTake _ _ _ _ _

theorem works_takeAbandon (w : Fin 16) (c : Commit) (s : State) : Works s (takeAbandon w c s).1 := by
  unfold takeAbandon
  split
  · exact works_discardTake _ _ _ _ _
  · exact (works_discardSlot _ _ s).trans ((works_dropJobs _ _).trans ((Works.post _ _).trans (works_allocate _ _)))

theorem works_takeAdvance (w : Fin 16) (c : Commit) (s : State) : Works s (takeAdvance w c s).1 := by
  unfold takeAdvance
  split
  · extract_lets n a b
    have hb : Works a b := Works.forConsumers _ (fun c t => works_updView _ _ _ _) a
    exact (works_updRoll s _ _).trans (hb.trans (Works.post _ _))
  · exact .refl s

/-- What the owner of a mapping does at a take moves working state only (R131, step 1). -/
theorem works_ownerTake (w : Fin 16) (c : Commit) (s : State) : Works s (ownerTake w c s).1 := by
  unfold ownerTake
  split
  · exact works_takeAdvance _ _ _
  split
  · exact works_takePublish _ _ _
  · exact works_takeAbandon _ _ _

theorem works_reclaimSlot (w : Fin 16) (s : State) : Works s (reclaimSlot w s) := by
  unfold reclaimSlot
  split
  · exact .refl s
  · exact (works_tearSlot _ _ _).trans (works_retire _ _ _)

theorem works_reclaimTarget (w : Fin 16) (s : State) : Works s (reclaimTarget w s) :=
  (works_tearSeeing w s).trans (works_releaseVisibility w _)

/-! ### Commits -/

theorem isWaiting_settle (e : Entry) : e.settle.isWaiting = false := by
  simp only [Entry.settle, Entry.isWaiting]
  split
  · next h =>
    split at h <;> simp at h
  · rfl

theorem name_resolve (taken : Bool) (e : Entry) : (e.resolve taken).name = e.name := by
  unfold Entry.resolve
  extract_lets x
  split <;> rfl

theorem isWaiting_resolve (taken : Bool) (e : Entry) (h : (e.resolve taken).isWaiting = true) : e.isWaiting = true := by
  unfold Entry.resolve at h
  extract_lets x at h
  split at h
  · simp [isWaiting_settle] at h
  · exact h

theorem works_releaseTrigger (trigger : Option (Fin 16 × Nat)) (taken : Bool) (s : State) :
    Works s (releaseTrigger trigger taken s) := by
  unfold releaseTrigger
  split
  · exact .refl s
  · exact Works.updEntry s _ _ _ (name_resolve taken) (isWaiting_resolve taken)

theorem works_discardCommit (w : Fin 16) (reason : Reason) (c : Commit) (s : State) :
    Works s (discardCommit w reason c s) := (Works.post s _).trans (works_releaseTrigger _ _ _)

theorem wf_reset : CommitState.reset.wf := ⟨rfl, Nat.zero_le _⟩

theorem name_leaveDrain (w : Fin 16) (e : Entry) : (e.leaveDrain w).name = e.name := by
  unfold Entry.leaveDrain
  split <;> rfl

theorem isWaiting_leaveDrain (w : Fin 16) (e : Entry) (h : (e.leaveDrain w).isWaiting = true) : e.isWaiting = true := by
  unfold Entry.leaveDrain at h
  split at h <;> exact h

/-- The discard of every commit of a window moves working state only (R133, R135). -/
theorem works_discardAll (w : Fin 16) (reason : Reason) (s : State) : Works s (discardAll w reason s) := by
  unfold discardAll
  extract_lets commits t
  have ht : Works s t :=
    (Works.mapEntries s _ (name_leaveDrain w) (isWaiting_leaveDrain w)).trans
      (Works.updCommits _ w _ (fun _ => wf_reset))
  exact ht.trans (Works.foldl _ (fun t c => works_discardCommit _ _ _ _) _ _)

theorem works_discardQueue (w : Fin 16) (reason : Reason) (s : State) : Works s (discardQueue w reason s) := by
  unfold discardQueue
  extract_lets commits t
  have ht : Works s t := Works.updCommits s w _ (fun h => ⟨h.1, Nat.zero_le _⟩)
  exact ht.trans (Works.foldl _ (fun t c => works_discardCommit _ _ _ _) _ _)

theorem name_enterDrain (w : Fin 16) (e : Entry) : (e.enterDrain w).name = e.name := by
  unfold Entry.enterDrain
  split <;> rfl

theorem isWaiting_enterDrain (w : Fin 16) (e : Entry) (h : (e.enterDrain w).isWaiting = true) : e.isWaiting = true := by
  unfold Entry.enterDrain at h
  split at h <;> exact h

/-- The begin of a commit moves working state only (R128). -/
theorem works_beginCommit (w : Fin 16) (c : Commit) (s : State) : Works s (beginCommit w c s) :=
  (Works.mapEntries s _ (name_enterDrain w) (isWaiting_enterDrain w)).trans
    (Works.updCommits _ w _ (fun h => ⟨rfl, h.2⟩))

theorem works_dropAfterTake (w : Fin 16) (s : State) : Works s (dropAfterTake w s) := by
  unfold dropAfterTake
  split
  · exact works_dropJobs _ _
  · exact .refl s

theorem works_takeOnce (w : Fin 16) (c : Commit) (s : State) : Works s (takeOnce w c s) := by
  unfold takeOnce
  have h := works_ownerTake w c s
  generalize ownerTake w c s = r at h
  obtain ⟨t, taken⟩ := r
  refine h.trans ((works_releaseTrigger c.trigger taken t).trans ((works_dropAfterTake w _).trans
    (Works.trans (Works.updCommits _ w _ ?_) (works_reclassifyFenced w _))))
  exact fun h => ⟨rfl, h.2⟩

theorem works_popQueue (w : Fin 16) (rest : List Commit) (c : Commit) (t : State) (hq : t.commits[w].queue = c :: rest) :
    Works t (t.updCommits w (fun x => { x with queue := rest })) := by
  refine Works.updCommits t w _ (fun h => ⟨h.1, ?_⟩)
  have hl := h.2
  rw [hq] at hl
  exact (Nat.le_succ _).trans hl

theorem works_beginNext (w : Fin 16) (s : State) : Works s (beginNext w s) := by
  unfold beginNext
  split
  · exact .refl s
  · next next rest hq =>
    split
    · exact (works_popQueue w rest next s hq).trans (works_beginCommit w next _)
    · exact .refl s

theorem works_takeNext (w : Fin 16) (s : State) : Works s (takeNext w s) := by
  unfold takeNext
  split
  · exact .refl s
  · exact (works_takeOnce w _ s).trans (works_beginNext w _)

/-- The take of a commit moves working state only (R131). -/
theorem works_takeCommit (w : Fin 16) (s : State) : Works s (takeCommit w s) := by
  unfold takeCommit
  generalize s.commits[w].queue.length + 1 = fuel
  induction fuel generalizing s with
  | zero => exact .refl s
  | succ fuel ih => exact (works_takeNext w s).trans (ih _)

/-- The arrival of a commit moves working state only (R127). -/
theorem works_arrive (w : Fin 16) (c : Commit) (s : State) : Works s (arrive w c s) := by
  unfold arrive
  split
  · exact works_discardCommit _ _ _ _
  · next hd =>
    split
    · exact (works_beginCommit _ _ _).trans (works_takeCommit _ _)
    · refine Works.updCommits s w _ (fun h => ⟨h.1, ?_⟩)
      have : s.commits[w].queue.length < 4 := by
        unfold arrivalDiscard at hd
        split at hd
        · simp at hd
        split at hd
        · simp at hd
        · simp at hd
        · simp at hd
        · simp at hd
        · split at hd
          · simp at hd
          · next h4 => simpa [Config.commitDepth] using h4
      simpa using this

theorem works_addCommit (m : Fin 16) (id : Nat) (s : State) : Works s (s.updEntry m id Entry.addCommit) :=
  Works.updEntry s m id _ (fun _ => rfl) (fun _ h => h)

theorem works_reportCommitWord (w m : Fin 16) (id : Nat) (r : Request) (s : State) :
    Works s (reportCommitWord w m id r s) := by
  unfold reportCommitWord
  split
  · exact .refl s
  split
  · exact .refl s
  split
  · exact .refl s
  split
  · exact .refl s
  split
  · exact .refl s
  split
  · exact .refl s
  · exact Works.post _ _
  · exact (works_addCommit _ _ s).trans (works_arrive _ _ _)

theorem works_closingCommit (m : Fin 16) (e : Entry) (w : Fin 16) (s : State) : Works s (closingCommit m e w s) := by
  unfold closingCommit
  split
  · refine Works.trans ?_ (works_arrive _ _ _)
    exact Works.updEntry s _ _ _ (fun _ => rfl) (fun _ h => by simp [isWaiting_settle] at h)
  · exact Works.updEntry s _ _ _ (fun _ => rfl) (fun _ h => by simp [isWaiting_settle] at h)

/-! ### The window controller -/

theorem works_discardForHalt (w : Fin 16) (s : State) : Works s (discardForHalt w s).1 := by
  unfold discardForHalt
  split
  · exact works_discardSlot _ _ _
  · exact works_discardSlot _ _ _
  · exact .refl s

/-- The entry into HALTED moves working state only (R38). -/
theorem works_haltWindow (w : Fin 16) (cause : HaltCause) (s : State) : Works s (haltWindow w cause s) := by
  unfold haltWindow
  extract_lets t
  have ht : Works s t := Works.updWindow s w _ (fun _ => rfl)
  have h := works_discardForHalt w t
  generalize discardForHalt w t = r at h
  obtain ⟨u, discarded⟩ := r
  exact (ht.trans h).trans ((works_dropJobs w u).trans ((Works.post _ _).trans
    ((works_discardAll w _ _).trans (works_answerAll _ _ _))))

theorem works_faultReport (w : Fin 16) (cause : HaltCause) (s : State) : Works s (faultReport w cause s) := by
  unfold faultReport
  split
  · exact works_haltWindow _ _ _
  · exact .refl s

theorem works_removeWorkingState (w : Fin 16) (s : State) : Works s (removeWorkingState w s) := .of_tables rfl

theorem works_becomeDefined (w : Fin 16) (s : State) : Works s (becomeDefined w s) :=
  Works.updWindow s w _ (fun _ => rfl)

/-- The completion of a drain moves working state only (R41). -/
theorem works_completeDrain (w : Fin 16) (s : State) : Works s (completeDrain w s) :=
  (works_removeWorkingState w s).trans ((works_becomeDefined w _).trans (Works.post _ _))

theorem works_testDrain (w : Fin 16) (s : State) : Works s (testDrain w s) := by
  unfold testDrain
  split
  · exact works_completeDrain _ _
  · exact .refl s

theorem works_drainWindow (w : Fin 16) (s : State) : Works s (drainWindow w s) := by
  unfold drainWindow
  extract_lets t u
  have ht : Works s t := Works.updWindow s w _ (fun _ => rfl)
  have hu : Works s u := ht.trans (works_discardQueue w _ t)
  have h : Works u (drainDrop w u).1 := by
    unfold drainDrop
    split
    · exact works_dropJobs _ _
    · exact .refl _
  generalize drainDrop w u = r at h
  obtain ⟨v, dropped⟩ := r
  exact (hu.trans h).trans ((works_answerAll _ _ v).trans (works_testDrain w _))

theorem works_clearWindow (w : Fin 16) (s : State) : Works s (clearWindow w s) := by
  unfold clearWindow
  split
  · exact (works_removeWorkingState w s).trans (works_becomeDefined w _)
  · exact .refl s

/-! ### The copier's reports -/

theorem works_clearCopyWait (m w : Fin 16) (i : Fin 4) (b : Nat) (s : State) : Works s (clearCopyWait m w i b s) := by
  unfold clearCopyWait
  split
  · exact .refl s
  · next e he =>
    extract_lets clear
    split
    · refine Works.trans ?_ (works_listFirstNeedsCopy _ _ _ _)
      exact Works.updCurrent s m e he _ (fun _ => rfl)
    · exact .refl s

theorem works_reportCopyEnd (w : Fin 16) (i : Fin 4) (b : Nat) (s : State) : Works s (reportCopyEnd w i b s) := by
  unfold reportCopyEnd
  refine Works.trans (Works.forMasters _ (fun m t => works_clearCopyWait m w i b t) s) ?_
  unfold publishSealed
  split
  · split
    · exact .refl _
    · exact (works_publishSlot _ _ _ _).trans (works_startSlotTimers _ _)
  · exact .refl _

theorem works_endCopy (y : Copy) (s : State) : Works s (endCopy y s) := by
  have key : ∀ t, Works s t → Works s (if Config.copierChoosesFirst s.draws then
      reportCopyEnd y.window y.dest y.block (kickCopier (t.updCopier Copier.endCopy))
      else kickCopier ((reportCopyEnd y.window y.dest y.block t).updCopier Copier.endCopy)) := by
    intro t ht
    split
    · exact ht.trans (((works_updCopier t _).trans (works_kickCopier _)).trans (works_reportCopyEnd _ _ _ _))
    · exact ht.trans (((works_reportCopyEnd _ _ _ t).trans (works_updCopier _ _)).trans (works_kickCopier _))
  exact key _ (.of_tables rfl)

theorem works_afterLastBurst (s : State) : Works s (afterLastBurst s) := by
  unfold afterLastBurst
  split
  · exact .refl s
  split
  · exact .refl s
  split
  · exact works_endDropped s
  split
  · exact works_updCopier s _
  · exact .refl s

/-- A backfill failure moves working state only (R80, R81). -/
theorem works_backfillFailure (y : Copy) (s : State) : Works s (backfillFailure y s) := by
  unfold backfillFailure
  extract_lets w lost a b c d e
  have ha : Works s a := works_dropMarks w s
  have hb : Works a b := Works.post a _
  have hc : Works b c := works_answerAll _ _ b
  have hd : Works c d := works_discardSlot _ _ c
  have he : Works d e := works_faultReport _ _ d
  exact ((((ha.trans hb).trans hc).trans hd).trans he).trans
    ((works_allocate w e).trans ((works_startSlotTimers w _).trans (works_endDropped _)))

theorem works_burstCompleted (i : Fin 4) (b : Buffer) (y : Copy) (status : MemStatus) (data : List Dword) (s : State) :
    Works s (burstCompleted i b y status data s) := by
  unfold burstCompleted
  extract_lets t cleared
  have ht : Works s t := works_lowerSlotInFlight _ _ s
  have hc : Works s cleared := ht.trans (works_updCopier t _)
  split
  · exact hc.trans (works_afterLastBurst _)
  split
  · refine hc.trans ?_
    unfold burstFault
    split
    · exact (works_updCopy _ _).trans ((works_updCopier _ _).trans (works_afterLastBurst _))
    · exact works_backfillFailure _ _
  · exact ht.trans (works_updCopier t _)
  · refine hc.trans ?_
    unfold chunkWritten
    extract_lets u
    have hu : Works cleared u := works_updCopy _ _
    split
    · exact hu
    split
    · exact hu.trans (works_endCopy _ _)
    · exact hu

end Sys2Proof.Machine
end

