-- ==== Sys2Proof/Tests/Slice0.lean ====
section
/-! SUPPORT. Tests: ill-formed commands are refused by the well-formedness checks, formats against the manual's own bytes,
and, for every statement with hypotheses, a state and operands that meet them (`witness_…`), at the ends of the ranges. -/

namespace Sys2Proof.Tests

open Sys2Proof.Machine

/-! ### Well-formedness (R1, R3, R168) -/

def oneBeat (a : Addr) : Request := ⟨.write, a, 1, [⟨0, 0xFF⟩]⟩

theorem test_wf_accepts : (Instr.requestArrival 15 (oneBeat 0xFFFFFFFFF8)).wf = true := by decide
theorem test_wf_refuses_misaligned : (Instr.requestArrival 0 (oneBeat 0x1004)).wf = false := by decide
theorem test_wf_refuses_no_beats : (Instr.requestArrival 0 ⟨.read, 0x1000, 0, []⟩).wf = false := by decide
theorem test_wf_refuses_17_beats : (Instr.requestArrival 0 ⟨.read, 0x1000, 17, []⟩).wf = false := by decide
theorem test_wf_refuses_read_data : (Instr.requestArrival 0 ⟨.read, 0x1000, 1, [⟨0, 0⟩]⟩).wf = false := by decide
theorem test_wf_refuses_missing_data : (Instr.requestArrival 0 ⟨.write, 0x1000, 2, [⟨0, 0⟩]⟩).wf = false := by decide
theorem test_wf_refuses_long_piece_data :
    (Instr.pieceCompletion 0 .done (List.replicate 17 0)).wf = false := by decide
theorem test_wf_refuses_long_burst_data :
    (Instr.copierBurstCompletion 0 .done (List.replicate 17 0)).wf = false := by decide
theorem test_wf_refuses_known_code : (Instr.unknownCommandFrame 0x87 []).wf = false := by decide
theorem test_wf_accepts_unknown_code : (Instr.unknownCommandFrame 0x88 []).wf = true := by decide

/-! ### The states the tests run on -/

/-- A slotted window of 4 blocks of 256 B and 3 slots, producer master 15, consumer 7 (R25, R26). -/
def slottedDef : Definition :=
  { base := 0x1000, sizeCode := 0, producers := 0x8000, consumers := 0x80, trigger := .commitWord, word := some 0x8000,
    policy := .stall, limit := 65535, haltOnFault := true, geometry := .slotted 4 .asIs [0x10000, 0x20000, 0x30000] }

/-- A rolling window with one top line, 4 visible lines, 2 staging lines and one bottom line (R27). -/
def rollingDef : Definition := { slottedDef with trigger := .closingWrite, geometry := .rolling 1 4 2 1 0x20000 }

def slotIn (state : SlotState) : Slot := { state := state, pins := 0, inFlight := 0, waiting := 0, hold := false }

/-- Work on four blocks, the first of them WRITTEN. -/
def work : Work := { map := [.written, .notWritten, .notWritten, .notWritten], written := 1, source := none }

/-- Slot 0 is the front with generation 5, slot 1 is FILLING, slot 2 PUBLISHED with generation 4. -/
def slotUnit : SlotUnit :=
  { slots := #v[some (slotIn (.published 5)), some (slotIn (.filling work)), some (slotIn (.published 4)), none]
    counter := 5, front := 0, filling := some 1, sealed := none }

def rollUnit : RollState := { origin := 5, serial := 7, seeing := 0, reads := [0, 0, 0, 0, 0, 0] }

def unpinned : View := { state := .unpinned, frames := 0, mark := none, timer := none }

def ringDef : RingDef :=
  { base := 0x50000, entries := 16, produced := 0x9000, consumed := 0x9008, threshold := 16, holdoff := 65535 }

/-- Window 15 is LIVE with this definition; consumer 7 is bound to master 1 and has a view; the ring is ACTIVE. -/
def liveWith (d : Definition) : State :=
  { State.reset with
    windows := State.reset.windows.set 15 { Window.reset with state := .live, definition := some d }
    consumers := State.reset.consumers.set 7 (some ⟨1, .line, 65535⟩)
    views := State.reset.views.set 15 (State.reset.views[15].set 7 (some unpinned))
    notice := { NoticeUnit.reset with ring := .active, definition := some ringDef } }

def slotted : State := { liveWith slottedDef with slots := State.reset.slots.set 15 (some slotUnit) }
def rolling : State := { liveWith rollingDef with rolls := State.reset.rolls.set 15 (some rollUnit) }

/-- Window 15 in another lifecycle state. -/
def inState (x : WinState) (s : State) : State := s.updWindow 15 (fun y => { y with state := x })

/-- A request at the head of a master's intake queue. -/
def head (m : Fin 16) (r : Request) (s : State) : State := { s with intake := s.intake.set m [r] }

/-- A master's response list. -/
def listed (m : Fin 16) (es : List Entry) (s : State) : State :=
  { s with responses := s.responses.set m es, nextId := 16 }

/-- A memory request in a place. -/
def placed (i : Fin 32) (q : MemRequest) (s : State) : State := { s with places := s.places.set i (some q) }

/-- The view of consumer 7 in window 15. -/
def viewing (v : View) (s : State) : State := s.updView 15 7 (fun _ => v)

def read (a : Addr) (n : Nat) : Request := ⟨.read, a, n, []⟩
def write (a : Addr) (n : Nat) : Request := ⟨.write, a, n, List.replicate n ⟨0, 0xFF⟩⟩
def store (a : Addr) (x : Dword) : Request := ⟨.write, a, 1, [⟨x, 0xFF⟩]⟩

/-- An entry of window 15. -/
def entry (r : Request) (stage : Stage) (pieces : List Piece) : Entry := newEntry 0 r (some 15) stage pieces

/-- A passthrough entry. -/
def plainEntry (r : Request) (stage : Stage) (piece : PieceStage) : Entry :=
  newEntry 0 r none stage [{ plainPiece r.addr r.beats r.data 0 with stage := piece }]

theorem mayTake_of {s : State} {m : Fin 16} {r : Request}
    (h : s.intake[m].head? = some r ∧ s.current m = none ∧ s.responses[m].length < 16) : s.mayTake m r := by
  obtain ⟨h, h', h''⟩ := h
  cases hq : s.intake[m] with
  | nil => simp [hq] at h
  | cons x rest => simp only [hq, List.head?_cons, Option.some.injEq] at h; exact ⟨⟨rest, by rw [hq, h]⟩, h', h''⟩

theorem windowHead_of {s : State} {m : Fin 16} {r : Request} {w : Fin 16} {d : Definition}
    (h : s.intake[m].head? = some r ∧ s.current m = none ∧ s.responses[m].length < 16)
    (h' : crossesPage r = false ∧ s.link.part = .running ∧ insideWindow r s = some w ∧ isWatchedWrite r s = false ∧
      s.definition w = some d) : s.windowHead m r w d := ⟨mayTake_of h, h'⟩

theorem nextGrant_of {s : State} {c : Contender} {i : Fin 32}
    (h : freePlace s = some i ∧ contends s c = true ∧ contends s .noticeWriter = decide (c = .noticeWriter) ∧
      contends s .copier = decide (c = .copier) ∧ ∀ m, contends s (.master m) = decide (c = .master m)) :
    s.nextGrant c i := by
  obtain ⟨hi, hc, hn, hy, hm⟩ := h
  refine ⟨hi, hc, fun c' h' => ?_⟩
  have : c' = c := by
    cases c' with
    | master m => simpa [hm, eq_comm] using h'
    | noticeWriter => simpa [hn, eq_comm] using h'
    | copier => simpa [hy, eq_comm] using h'
  exact this ▸ le_rfl

/-- What a test on every window's definition says. -/
theorem ofDefinitions {s : State} {f : Fin 16 → Definition → Bool} (h : ∀ w, (s.definition w).all (f w) = true)
    {w : Fin 16} {d : Definition} (hd : s.definition w = some d) : f w d = true := by
  have := h w
  simpa [hd] using this

/-! ### Witnesses: the queue, the intake queues, the responses -/

theorem witness_StepRunsFrontCommand :
    { State.reset with pending := [.timebaseIncrement] }.pending = [.timebaseIncrement] ∧
    { State.reset with edges := [.sselFall] }.pending = [] ∧ { State.reset with edges := [.sselFall] }.edges = [.sselFall] ∧
    State.reset.pending = [] ∧ State.reset.edges = [] := ⟨rfl, rfl, rfl, rfl, rfl⟩

/-- 7 requests leave a place; 8 fill the queue. -/
theorem witness_ArrivalJoinsQueueOrStaysOnBus :
    { State.reset with intake := State.reset.intake.set 15 (List.replicate 7 (read 0 1)) }.intake[(15 : Fin 16)].length < 8 ∧
    8 ≤ { State.reset with intake := State.reset.intake.set 15 (List.replicate 8 (read 0 1)) }.intake[(15 : Fin 16)].length := by
  decide

def fifteenListed : State := listed 15 (List.replicate 15 (plainEntry (read 0 1) .inFlight .issued)) State.reset

/-- The three ways past the RESETTING test: crossing a page, RUNNING, touching no window; with 15 entries listed. -/
theorem witness_HeadOfLineRule :
    (head 15 (read 0xFF8 2) fifteenListed).mayTake 15 (read 0xFF8 2) ∧ crossesPage (read 0xFF8 2) = true ∧
    (head 15 (read 0xFF0 2) fifteenListed).mayTake 15 (read 0xFF0 2) ∧
    touchedWindows (read 0xFF0 2) (head 15 (read 0xFF0 2) fifteenListed) = [] :=
  ⟨mayTake_of (by decide), by decide, mayTake_of (by decide), by decide⟩

def sixteenListed : State := listed 15 (List.replicate 16 (plainEntry (read 0 1) .inFlight .issued)) slotted

theorem witness_HeadOfLineRule_holds :
    State.reset.intake[(15 : Fin 16)] = [] ∧
    (∃ e ∈ (listed 15 [plainEntry (read 0 1) (.waiting .mapped) .unissued] slotted).responses[(15 : Fin 16)],
      e.isWaiting = true) ∧
    16 ≤ sixteenListed.responses[(15 : Fin 16)].length := ⟨rfl, by decide, by decide⟩

def resettingHead : State :=
  let s := head 15 (read 0x13F8 2) slotted
  { s with link := { s.link with part := .resetting } }

theorem witness_HeadOfLineRule_resetting :
    resettingHead.intake[(15 : Fin 16)] = [read 0x13F8 2] ∧ crossesPage (read 0x13F8 2) = false ∧
    resettingHead.link.part = .resetting ∧
    ∃ w g, resettingHead.range w = some g ∧ touches (requestRange (read 0x13F8 2)) g = true :=
  ⟨rfl, by decide, rfl, 15, (0x1000, 0x400), by decide, by decide⟩

def answered : Entry := plainEntry (read 0 1) (.complete ⟨.done, [1]⟩) (.done [1])

theorem witness_ResponsesLeaveInOrder :
    (listed 15 [answered] State.reset).responses[(15 : Fin 16)] = [answered] ∧
    answered.stage = .complete ⟨.done, [1]⟩ ∧
    ∀ e a, fifteenListed.responses[(15 : Fin 16)].head? = some e → e.stage ≠ .complete a := by
  refine ⟨rfl, rfl, fun e a h => ?_⟩
  cases (show some (plainEntry (read 0 1) .inFlight .issued) = some e from h)
  simp [plainEntry, newEntry]

/-- A finished entry of one or two pieces. -/
def finished (r : Request) (pieces : List PieceStage) (created unresolved : Nat) (anyTaken : Bool) : Entry :=
  { entry r .inFlight (pieces.map (fun x => { plainPiece r.addr 1 [] 0 with stage := x })) with
    created := created, unresolved := unresolved, anyTaken := anyTaken }

theorem witness_AnswerStatusAndData :
    (finished (store 0x8000 0) [.done []] 16 1 false).unresolved ≠ 0 ∧
    (finished (read 0 1) [.done [1]] 0 0 false).pieces = [{ plainPiece 0 1 [] 0 with stage := .done [1] }] ∧
    (finished (read 0 1) [.faulted] 0 0 false).pieces = [{ plainPiece 0 1 [] 0 with stage := .faulted }] ∧
    (finished (read 0 2) [.done [1], .faulted] 0 0 false).pieces =
      [{ plainPiece 0 1 [] 0 with stage := .done [1] }, { plainPiece 0 1 [] 0 with stage := .faulted }] ∧
    (∃ p ∈ (finished (write 0 1) [.done [], .faulted] 0 0 false).pieces, p.stage = .faulted) ∧
    (∀ p ∈ (finished (store 0 0) [.done []] 1 0 false).pieces, p.stage ≠ .faulted) ∧
    0 < (finished (store 0 0) [.done []] 1 0 false).created ∧
    (finished (store 0 0) [.done []] 0 0 false).created = 0 := by decide

/-! ### Witnesses: classification -/

/-- The last byte just beyond a page, and just beyond the address space. -/
theorem witness_PageCrossingDenied :
    (head 15 (read 0xFF8 2) fifteenListed).mayTake 15 (read 0xFF8 2) ∧
    (read 0xFF8 2).addr.toNat / 4096 ≠ ((read 0xFF8 2).addr.toNat + 8 * (read 0xFF8 2).beats - 1) / 4096 ∧
    2 ^ 40 ≤ (read 0xFFFFFFFFF8 2).addr.toNat + 8 * (read 0xFFFFFFFFF8 2).beats - 1 :=
  ⟨mayTake_of (by decide), by decide, by decide⟩

/-- One beat inside the range and one beyond it. -/
theorem witness_WindowRefusals_straddle :
    let s := head 15 (write 0x13F8 2) slotted
    s.mayTake 15 (write 0x13F8 2) ∧ crossesPage (write 0x13F8 2) = false ∧ s.link.part = .running ∧
    s.range 15 = some (0x1000, 0x400) ∧ touches (requestRange (write 0x13F8 2)) (0x1000, 0x400) = true ∧
    (∀ w' < 15, s.range w' = none) ∧ liesInside (requestRange (write 0x13F8 2)) (0x1000, 0x400) = false :=
  ⟨mayTake_of (by decide), by decide, rfl, by decide, by decide, by decide, by decide⟩

def lastBeat : Request := write 0x13F8 1

theorem witness_WindowRefusals :
    (head 15 lastBeat (inState .defined slotted)).windowHead 15 lastBeat 15 slottedDef ∧
    (head 15 lastBeat (inState .halted slotted)).windowHead 15 lastBeat 15 slottedDef ∧
    (head 15 lastBeat (inState .draining slotted)).windowHead 15 lastBeat 15 slottedDef ∧
    (head 1 lastBeat slotted).windowHead 1 lastBeat 15 slottedDef ∧
    (head 1 lastBeat slotted).role slottedDef 1 ≠ .producer :=
  ⟨windowHead_of (by decide) (by decide), windowHead_of (by decide) (by decide),
   windowHead_of (by decide) (by decide), windowHead_of (by decide) (by decide), by decide⟩

/-- 16 beats of which the last lies in the next block. -/
theorem witness_PiecesCoverRequest :
    (write 0x1088 16).wf = true ∧ slottedDef.base.toNat % slottedDef.blockSize = 0 ∧
    slottedDef.base.toNat + slottedDef.rangeLength ≤ 2 ^ 40 ∧
    liesInside (requestRange (write 0x1088 16)) slottedDef.range = true ∧
    (cut slottedDef (write 0x1088 16)).map Piece.beats = [15, 1] ∧ cut slottedDef (write 0x1080 16) ≠ [] := by decide

def plainWaiting : State := listed 15 [plainEntry (read 0 16) (.waiting .mapped) .unissued] State.reset

theorem witness_PassthroughRunsAtItsOwnAddress :
    (head 15 (read 0xF80 16) slotted).mayTake 15 (read 0xF80 16) ∧ crossesPage (read 0xF80 16) = false ∧
    touchedWindows (read 0xF80 16) (head 15 (read 0xF80 16) slotted) = [] ∧
    isWatchedWrite (read 0xF80 16) (head 15 (read 0xF80 16) slotted) = false ∧
    plainWaiting.places[(0 : Fin 32)] = none ∧ plainWaiting.nextGrant (.master 15) 0 ∧
    plainWaiting.current 15 = some (plainEntry (read 0 16) (.waiting .mapped) .unissued) ∧
    (plainEntry (read 0 16) (.waiting .mapped) .unissued).nextPiece = some (0, plainPiece 0 16 [] 0) :=
  ⟨mayTake_of (by decide), by decide, by decide, by decide, by decide, nextGrant_of (by decide), by decide,
   by decide⟩

def pieceOf (k : Nat) : MemRequest := { owner := .piece 15 0 k, kind := .read, addr := 0, beats := 1, data := [] }

def plainInFlight : State :=
  placed 31 (pieceOf 0) (listed 15 [plainEntry (read 0 16) .inFlight .issued] State.reset)

theorem witness_PassthroughRunsAtItsOwnAddress_completes :
    plainInFlight.places[(31 : Fin 32)] = some (pieceOf 0) ∧
    plainInFlight.responses[(15 : Fin 16)].find? (fun e => decide (e.id = 0)) =
      some (plainEntry (read 0 16) .inFlight .issued) ∧
    (plainEntry (read 0 16) .inFlight .issued).pieces[0]? = some { plainPiece 0 16 [] 0 with stage := .issued } ∧
    plainInFlight.notClearing := ⟨rfl, by decide, rfl, Or.inl rfl⟩

/-! ### Witnesses: requests of a slotted window -/

/-- The slot window under BACKFILL, block 0 WRITTEN, block 1 waiting for its copy from slot 0. -/
def backfillWork : Work := { map := [.written, .needsCopy, .notWritten, .copied], written := 1, source := some 0 }

def backfillUnit : SlotUnit :=
  { slotUnit with slots := slotUnit.slots.set 1 (some (slotIn (.filling backfillWork))) }

def backfilling : State := { slotted with slots := slotted.slots.set 15 (some backfillUnit) }

/-- A request of two pieces, in blocks 0 and 1. -/
def twoBlocks : Request := read 0x10F8 2

theorem witness_SlottedReadMapped :
    (head 0 twoBlocks slotted).windowHead 0 twoBlocks 15 slottedDef ∧
    (head 0 twoBlocks slotted).slots[(15 : Fin 16)] = some slotUnit ∧
    (head 0 twoBlocks slotted).role slottedDef 0 = .bystander ∧
    (head 15 twoBlocks backfilling).windowHead 15 twoBlocks 15 slottedDef ∧
    (head 15 twoBlocks backfilling).role slottedDef 15 = .producer ∧ backfillUnit.filling = some 1 ∧
    (head 15 twoBlocks backfilling).work 15 1 = some backfillWork :=
  ⟨windowHead_of (by decide) (by decide), rfl, by decide, windowHead_of (by decide) (by decide), by decide, rfl,
   by decide⟩

def pinnedToTwo : View := { unpinned with state := .pinnedSlot 2 4 }
def torn : View := { unpinned with state := .torn }

/-- The HALTED window maps a consumer's read too. -/
theorem witness_ConsumerReadFollowsItsPin :
    let s := head 1 twoBlocks (viewing pinnedToTwo (inState .halted slotted))
    let t := head 1 twoBlocks (viewing torn slotted)
    s.windowHead 1 twoBlocks 15 slottedDef ∧ s.role slottedDef 1 = .consumer 7 ∧
    s.consumers[(7 : Fin 8)] = some ⟨1, .line, 65535⟩ ∧ s.view 15 7 = some pinnedToTwo ∧
    t.windowHead 1 twoBlocks 15 slottedDef ∧ t.role slottedDef 1 = .consumer 7 ∧ t.view 15 7 = some torn :=
  ⟨windowHead_of (by decide) (by decide), by decide, rfl, by decide, windowHead_of (by decide) (by decide), by decide,
   by decide⟩

/-- Consumer 7 bound FIRST_BLOCK. -/
def firstBlock (s : State) : State := { s with consumers := s.consumers.set 7 (some ⟨1, .firstBlock, 65535⟩) }

/-- A view pinned to the front whose progress mark is this block. -/
def markedView (k : Nat) : View := { unpinned with state := .pinnedSlot 0 5, mark := some k }

theorem witness_ConsumerReadPinsFront :
    let s := head 1 twoBlocks (firstBlock slotted)
    let t := head 1 twoBlocks (firstBlock (viewing (markedView 1) slotted))
    let t' := head 1 twoBlocks (firstBlock (viewing (markedView 0) slotted))
    s.windowHead 1 twoBlocks 15 slottedDef ∧ s.role slottedDef 1 = .consumer 7 ∧
    s.consumers[(7 : Fin 8)] = some ⟨1, .firstBlock, 65535⟩ ∧ s.view 15 7 = some unpinned ∧
    slotUnit.slots[slotUnit.front] = some (slotIn (.published 5)) ∧
    t.windowHead 1 twoBlocks 15 slottedDef ∧ t.view 15 7 = some (markedView 1) ∧
    t.generation 15 slotUnit.front = 5 ∧
    t'.windowHead 1 twoBlocks 15 slottedDef ∧ t'.view 15 7 = some (markedView 0) :=
  ⟨windowHead_of (by decide) (by decide), by decide, rfl, by decide, rfl, windowHead_of (by decide) (by decide),
   by decide, by decide, windowHead_of (by decide) (by decide), by decide⟩

/-- Consumer 7, bound FIRST_BLOCK, pinned to slot 2 as another view is, its progress mark at this block. -/
def olderPinned (k : Nat) (s : State) : State :=
  firstBlock (viewing { pinnedToTwo with mark := some k } { s with slots := s.slots.set 15 (some
    { slotUnit with slots := slotUnit.slots.set 2 (some { slotIn (.published 4) with pins := 2 }) }) })

/-- A frame start (mark 1) and none (mark 0) of a view pinned to an older slot; a TORN view's reads from block 0 and 1. -/
theorem witness_ConsumerReadPinsFront_older :
    let s := head 1 twoBlocks (olderPinned 1 slotted)
    let s' := head 1 twoBlocks (olderPinned 0 slotted)
    let t := head 1 twoBlocks (firstBlock (viewing torn slotted))
    let t' := head 1 (read 0x1100 1) (firstBlock (viewing torn slotted))
    s.windowHead 1 twoBlocks 15 slottedDef ∧ s.role slottedDef 1 = .consumer 7 ∧
    s.view 15 7 = some { pinnedToTwo with mark := some 1 } ∧
    (s.slot 15 2).map Slot.pins = some 2 ∧ firstUnit slottedDef twoBlocks = 0 ∧
    s'.windowHead 1 twoBlocks 15 slottedDef ∧ s'.view 15 7 = some { pinnedToTwo with mark := some 0 } ∧
    t.windowHead 1 twoBlocks 15 slottedDef ∧ t.role slottedDef 1 = .consumer 7 ∧ t.view 15 7 = some torn ∧
    t'.windowHead 1 (read 0x1100 1) 15 slottedDef ∧ firstUnit slottedDef (read 0x1100 1) = 1 :=
  ⟨windowHead_of (by decide) (by decide), by decide, by decide, by decide, by decide,
   windowHead_of (by decide) (by decide), by decide, windowHead_of (by decide) (by decide), by decide, by decide,
   windowHead_of (by decide) (by decide), by decide⟩

def lastOfTwo : Request := write 0x1170 2

/-- A copy of another block is in progress. -/
def copying (s : State) : State :=
  { s with copier := { s.copier with
    copy := some { window := 15, source := 0, dest := 1, block := 2, attempt := .first, failed := false,
                   dropped := false, next := 0, written := 0 } } }

theorem witness_ProducerWriteMapped :
    (head 15 lastBeat slotted).windowHead 15 lastBeat 15 slottedDef ∧
    (head 15 lastBeat slotted).role slottedDef 15 = .producer ∧
    (head 15 lastBeat slotted).commits[(15 : Fin 16)].fence = false ∧
    (head 15 lastBeat slotted).work 15 1 = some work ∧
    (∀ p ∈ cut slottedDef lastBeat,
      work.map[p.unit]? = some .notWritten ∨ work.map[p.unit]? = some .copied ∨ work.map[p.unit]? = some .written) ∧
    (∀ e ∈ (head 15 lastBeat slotted).responses[(15 : Fin 16)], e.id ≠ (head 15 lastBeat slotted).nextId) ∧
    (head 15 lastOfTwo (copying backfilling)).windowHead 15 lastOfTwo 15 slottedDef ∧
    (head 15 lastOfTwo (copying backfilling)).work 15 1 = some backfillWork ∧
    cut slottedDef lastOfTwo = [plainPiece 0x1170 2 [⟨0, 0xFF⟩, ⟨0, 0xFF⟩] 1] ∧
    backfillWork.map[1]? = some .needsCopy ∧ (head 15 lastOfTwo (copying backfilling)).copier.copy.isSome = true :=
  ⟨windowHead_of (by decide) (by decide), by decide, rfl, by decide, by decide, by decide,
   windowHead_of (by decide) (by decide), by decide, by decide, rfl, rfl⟩

/-- No slot is FILLING; slot 1 is SEALED or FREE. -/
def noFilling (isSealed : Bool) : SlotUnit :=
  { slotUnit with
    slots := slotUnit.slots.set 1 (some (slotIn (if isSealed then .sealed work 9 else .retiring)))
    filling := none
    sealed := if isSealed then some 1 else none }

def exhausted (isSealed : Bool) : State := { slotted with slots := slotted.slots.set 15 (some (noFilling isSealed)) }

def fenced (s : State) : State :=
  s.updCommits 15 (fun c =>
    { c with current := some ⟨⟨.publish, 9, some 15, none⟩, 1⟩, fence := true })

theorem witness_ProducerWriteWaitsUnmapped :
    (head 15 lastBeat (fenced slotted)).windowHead 15 lastBeat 15 slottedDef ∧
    (head 15 lastBeat (fenced slotted)).commits[(15 : Fin 16)].fence = true ∧
    (head 15 lastBeat (exhausted false)).windowHead 15 lastBeat 15 slottedDef ∧
    (head 15 lastBeat (exhausted false)).commits[(15 : Fin 16)].fence = false ∧ (noFilling false).sealed = none ∧
    (head 15 lastBeat (exhausted true)).windowHead 15 lastBeat 15 slottedDef ∧ (noFilling true).sealed ≠ none :=
  ⟨windowHead_of (by decide) (by decide), by decide, windowHead_of (by decide) (by decide), rfl, rfl,
   windowHead_of (by decide) (by decide), by decide⟩

/-! ### Witnesses: requests of a rolling window -/

/-- The request lies in lines 3 and 4, of which 4 is the last visible line: under the next origin it is the target. -/
theorem witness_RollingReadMapped :
    (head 0 (read 0x13F8 2) rolling).windowHead 0 (read 0x13F8 2) 15 rollingDef ∧
    (head 0 (read 0x13F8 2) rolling).role rollingDef 0 = .bystander ∧
    (head 15 (read 0x13F8 2) rolling).windowHead 15 (read 0x13F8 2) 15 rollingDef ∧
    (head 15 (read 0x13F8 2) rolling).role rollingDef 15 = .producer ∧
    (head 15 (read 0x13F8 2) rolling).rolls[(15 : Fin 16)] = some rollUnit :=
  ⟨windowHead_of (by decide) (by decide), by decide, windowHead_of (by decide) (by decide), by decide, rfl⟩

/-- A view of the rolling window pinned to origin 3. -/
def rollView (lag : Nat) (mark : Option Nat) : View := { unpinned with state := .pinnedOrigin 3 lag, mark := mark }

/-- A frame start of a FIRST_BLOCK view that sees the target, its lag S, and of one that does not. -/
theorem witness_RollingReadMapped_leaving :
    let r := read 0x1000 1
    let s := head 1 r (firstBlock (viewing (rollView 2 (some 1)) rolling))
    let after (v : View) := v.afterRead ⟨1, .firstBlock, 65535⟩ (.pinnedOrigin 5 0) 0 0 0
    s.windowHead 1 r 15 rollingDef ∧ s.role rollingDef 1 = .consumer 7 ∧ s.view 15 7 = some (rollView 2 (some 1)) ∧
    s.consumers[(7 : Fin 8)] = some ⟨1, .firstBlock, 65535⟩ ∧ s.oneWaiting ∧ rollingDef.staging ≤ 2 ∧
    (after (rollView 2 (some 1))).frames ≠ (rollView 2 (some 1)).frames ∧
    (after (rollView 1 (some 1))).frames ≠ (rollView 1 (some 1)).frames ∧
    (after (rollView 2 (some 0))).frames = (rollView 2 (some 0)).frames :=
  ⟨windowHead_of (by decide) (by decide), by decide, by decide, rfl,
   by unfold State.oneWaiting; decide, by decide, by decide, by decide, by decide⟩

/-- A LINE view that sees the target; a FIRST_BLOCK view whose read starts a frame, its lag one below S; an UNPINNED and
a TORN view. -/
theorem witness_RollingReadMapped_consumer :
    let r := read 0x1000 1
    let s := head 1 r (viewing (rollView 2 none) rolling)
    let t := head 1 r (firstBlock (viewing (rollView 1 (some 1)) rolling))
    let u := head 1 r (firstBlock rolling)
    let v := head 1 r (viewing torn rolling)
    s.windowHead 1 r 15 rollingDef ∧ s.role rollingDef 1 = .consumer 7 ∧ s.view 15 7 = some (rollView 2 none) ∧
    ((rollView 2 none).afterRead ⟨1, .line, 65535⟩ (.pinnedOrigin 5 0) 0 0 0).state = (rollView 2 none).state ∧
    t.windowHead 1 r 15 rollingDef ∧ t.view 15 7 = some (rollView 1 (some 1)) ∧ 1 < rollingDef.staging ∧
    t.consumers[(7 : Fin 8)] = some ⟨1, .firstBlock, 65535⟩ ∧
    u.windowHead 1 r 15 rollingDef ∧ u.view 15 7 = some unpinned ∧
    v.windowHead 1 r 15 rollingDef ∧ v.view 15 7 = some torn :=
  ⟨windowHead_of (by decide) (by decide), by decide, by decide, by decide, windowHead_of (by decide) (by decide),
   by decide, by decide, rfl, windowHead_of (by decide) (by decide), by decide, windowHead_of (by decide) (by decide),
   by decide⟩

/-- The target position, 3, is being read. -/
def seenTarget : RollState := { rollUnit with reads := [0, 0, 0, 1, 0, 0] }

theorem witness_RollingWriteMapped :
    let s := head 15 (write 0x13F8 2) { rolling with rolls := rolling.rolls.set 15 (some seenTarget) }
    s.windowHead 15 (write 0x13F8 2) 15 rollingDef ∧ s.role rollingDef 15 = .producer ∧
    s.commits[(15 : Fin 16)].fence = false ∧ s.slots[(15 : Fin 16)] = none ∧
    s.rolls[(15 : Fin 16)] = some seenTarget ∧ rollingDef.targetPosition 5 = 3 ∧
    (∀ e ∈ s.responses[(15 : Fin 16)], e.id ≠ s.nextId) :=
  ⟨windowHead_of (by decide) (by decide), by decide, rfl, rfl, by decide, by decide, by decide⟩

theorem witness_RollingLinesDistinct :
    rollingDef.geometry = .rolling 1 4 2 1 0x20000 ∧ 1 < 2 ∧ 5 < rollingDef.units ∧
    rollingDef.ringPosition 5 4 = some 2 ∧ rollingDef.physicalLine 5 4 ≠ rollingDef.physicalLine 5 3 := by decide

/-! ### Witnesses: watched words -/

/-- The ring holds 15 unconsumed records of 16 entries: index 0 lies at the end of the cyclic range. -/
def fullRing (s : State) : State := { s with notice := { s.notice with write := 0, consumed := 1 } }

theorem witness_ConsumedIndexStoreTaken :
    let s := head 0 (store 0x9008 0) (fullRing slotted)
    s.mayTake 0 (store 0x9008 0) ∧ crossesPage (store 0x9008 0) = false ∧ touchedWindows (store 0x9008 0) s = [] ∧
    s.notice.ring ≠ .unset ∧ s.notice.definition = some ringDef ∧ includesWord (store 0x9008 0) ringDef.consumed = true ∧
    beatHolding (store 0x9008 0) ringDef.consumed = some ⟨0, 0xFF⟩ ∧
    (∀ w d a, s.windows[(w : Fin 16)].state ≠ .undefined → s.definition w = some d → d.word = some a →
      includesWord (store 0x9008 0) a = false) ∧
    (0 : Dword).toNat < ringDef.entries ∧
    ((0 : Dword).toNat + ringDef.entries - s.notice.consumed) % ringDef.entries ≤
      (s.notice.write + ringDef.entries - s.notice.consumed) % ringDef.entries := by
  refine ⟨mayTake_of (by decide), by decide, by decide, by decide, rfl, by decide, by decide, ?_, by decide, by decide⟩
  intro w d a _ hd ha
  have := ofDefinitions (f := fun _ d => d.word.all (fun a => !includesWord (store 0x9008 0) a)) (by decide) hd
  simpa [ha] using this

/-- One lane off, a value of `entries`, and one beyond the write index. -/
theorem witness_IndexErrorRecordsIgnoredStores :
    let s := head 0 (store 0x9008 1) slotted
    s.mayTake 0 (store 0x9008 1) ∧ touchedWindows (store 0x9008 1) s = [] ∧ s.notice.definition = some ringDef ∧
    beatHolding (store 0x9008 1) ringDef.consumed = some ⟨1, 0xFF⟩ ∧
    (beatHolding ⟨.write, 0x9008, 1, [⟨0, 0xFE⟩]⟩ ringDef.consumed).map Beat.lanes ≠ some 0xFF ∧
    ringDef.entries ≤ (16 : Dword).toNat ∧
    (s.notice.write + ringDef.entries - s.notice.consumed) % ringDef.entries <
      ((1 : Dword).toNat + ringDef.entries - s.notice.consumed) % ringDef.entries ∧
    (∃ t, exec (.setNoticeRing []) s = .next t) ∧ (∃ t, exec (.hardReset true) s = .next t) :=
  ⟨mayTake_of (by decide), by decide, rfl, by decide, by decide, by decide, by decide, ⟨_, rfl⟩, ⟨_, rfl⟩⟩

/-- The commit word under one of the conditions of the statement, master 15 being the producer and master 0 not. -/
def commitHead (m : Fin 16) (x : Dword) (s : State) : State := head m (store 0x8000 x) s

/-- What the statement asks of the store, the window and the words around it. -/
def CommitStore (m : Fin 16) (x : Dword) (s : State) : Prop :=
  let t := commitHead m x s
  t.mayTake m (store 0x8000 x) ∧ crossesPage (store 0x8000 x) = false ∧ touchedWindows (store 0x8000 x) t = [] ∧
  t.link.part = .running ∧ t.windows[(15 : Fin 16)].state ≠ .undefined ∧ t.definition 15 = some slottedDef ∧
  includesWord (store 0x8000 x) 0x8000 = true ∧ beatHolding (store 0x8000 x) 0x8000 = some ⟨x, 0xFF⟩ ∧
  (∀ w' d' a', w' ≠ 15 → t.windows[(w' : Fin 16)].state ≠ .undefined → t.definition w' = some d' → d'.word = some a' →
    includesWord (store 0x8000 x) a' = false) ∧
  (∀ n, t.notice.definition = some n → t.notice.ring = .unset ∨ includesWord (store 0x8000 x) n.consumed = false) ∧
  ∀ e ∈ t.responses[m], e.id ≠ t.nextId

theorem commitStore_of {m : Fin 16} {x : Dword} {s : State}
    (h : (commitHead m x s).intake[m].head? = some (store 0x8000 x) ∧ (commitHead m x s).current m = none ∧
      (commitHead m x s).responses[m].length < 16)
    (h' : crossesPage (store 0x8000 x) = false ∧ touchedWindows (store 0x8000 x) (commitHead m x s) = [] ∧
      (commitHead m x s).link.part = .running ∧ (commitHead m x s).windows[(15 : Fin 16)].state ≠ .undefined ∧
      (commitHead m x s).definition 15 = some slottedDef ∧ includesWord (store 0x8000 x) 0x8000 = true ∧
      beatHolding (store 0x8000 x) 0x8000 = some ⟨x, 0xFF⟩)
    (hw : ∀ w, w ≠ 15 → (commitHead m x s).windows[(w : Fin 16)].state = .undefined)
    (hn : (commitHead m x s).notice.definition.all (fun n => !includesWord (store 0x8000 x) n.consumed) = true)
    (he : ∀ e ∈ (commitHead m x s).responses[m], e.id ≠ (commitHead m x s).nextId) : CommitStore m x s := by
  obtain ⟨h1, h2, h3, h4, h5, h6, h7⟩ := h'
  refine ⟨mayTake_of h, h1, h2, h3, h4, h5, h6, h7, fun w d a hne hs => absurd (hw w hne) hs, fun n hd => ?_, he⟩
  right
  simpa [hd] using hn

def publishWord : Dword := 0x10007

def queueing (n : Nat) (s : State) : State :=
  s.updCommits 15 (fun c =>
    { c with queue := List.replicate n ⟨.publish, 9, none, none⟩, current := some ⟨⟨.publish, 9, none, none⟩, 1⟩,
             fence := true })

/-- No producer; a word that is no commit; each state in which a commit is discarded; 4, 3 and no commits queued. -/
theorem witness_CommitWordStoreOutcomes :
    CommitStore 0 publishWord slotted ∧ slottedDef.producers.getLsbD (0 : Fin 16).val = false ∧
    CommitStore 15 0x30000 slotted ∧ (0x30000 : Dword).toNat / 2 ^ 16 % 256 = 3 ∧
    CommitStore 15 publishWord (inState .defined slotted) ∧ CommitStore 15 publishWord (inState .halted slotted) ∧
    CommitStore 15 publishWord (inState .draining slotted) ∧ slottedDef.producers.getLsbD (15 : Fin 16).val = true ∧
    publishWord.toNat / 2 ^ 16 % 256 = 1 ∧ slottedDef.trigger = .commitWord ∧
    CommitStore 15 publishWord (queueing 4 slotted) ∧ (queueing 4 slotted).commits[(15 : Fin 16)].queue.length = 4 ∧
    CommitStore 15 publishWord (queueing 3 slotted) ∧ (queueing 3 slotted).commits[(15 : Fin 16)].queue.length = 3 ∧
    (queueing 3 slotted).commits[(15 : Fin 16)].current.isSome = true ∧
    CommitStore 15 publishWord slotted ∧ (commitHead 15 publishWord slotted).commits[(15 : Fin 16)] = .reset := by
  refine ⟨?_, by decide, ?_, by decide, ?_, ?_, ?_, by decide, by decide, rfl, ?_, by decide, ?_, by decide, by decide, ?_,
    by decide⟩ <;>
    exact commitStore_of (by decide) (by decide) (by decide) (by decide) (by decide)

/-! ### Witnesses: issue -/

def portFull : State := { slotted with places := Vector.replicate 32 (some (pieceOf 0)) }

theorem witness_GrantFollowsRotation :
    (∀ i : Fin 32, portFull.places[i].isSome = true) ∧ (∀ m, contends slotted (.master m) = false) ∧
    (copying slotted).nextGrant .copier 0 ∧
    ∀ y, (copying slotted).copier.copy = some y → ((copying slotted).definition y.window).isSome = true := by
  refine ⟨by decide, by decide, nextGrant_of (by decide), fun y hy => ?_⟩
  cases (show some _ = some y from hy)
  rfl

/-- A write of the last beat of the range, mapped to slot 1. -/
def lastPiece (stage : PieceStage) : Piece := { mapToSlot slottedDef 1 (plainPiece 0x13F8 1 [⟨0, 0xFF⟩] 3) with stage := stage }

/-- An entry of master 15 whose one piece is that one. -/
def lastEntry (kind : Kind) (stage : Stage) (piece : PieceStage) : Entry :=
  entry { lastBeat with kind := kind } stage [lastPiece piece]

/-- The counts of window 15 and of its slot 1. -/
def counted (inFlight waiting : Nat) (s : State) : State :=
  (s.updWindow 15 (fun x => { x with inFlight := inFlight, waiting := waiting })).updSlot 15 1
    (fun x => { x with inFlight := inFlight, waiting := waiting })

def pieceReady : State := counted 0 1 (listed 15 [lastEntry .write (.waiting .mapped) .unissued] slotted)

theorem witness_WindowPieceIssued :
    pieceReady.nextGrant (.master 15) 0 ∧ pieceReady.link.part = .running ∧
    pieceReady.current 15 = some (lastEntry .write (.waiting .mapped) .unissued) ∧
    (lastEntry .write (.waiting .mapped) .unissued).window = some 15 ∧
    (lastEntry .write (.waiting .mapped) .unissued).nextPiece = some (0, lastPiece .unissued) :=
  ⟨nextGrant_of (by decide), rfl, by decide, rfl, by decide⟩

def noticeWaiting : Notice := ⟨.windowDrained 15, 0xFFFFFFFF⟩

/-- The notice unit with a record, a flush request or the initial write-back to issue. -/
def reporting (owed flush : Bool) (pending : List Notice) : State :=
  { slotted with notice := { slotted.notice with owed := owed, flush := flush, pending := pending } }

theorem witness_NoticeWriteIssued :
    (reporting true true [noticeWaiting]).nextGrant .noticeWriter 0 ∧
    (reporting false true [noticeWaiting]).nextGrant .noticeWriter 0 ∧
    (reporting false true [noticeWaiting]).notice.announces ringDef ∧
    (reporting false false [noticeWaiting]).nextGrant .noticeWriter 0 ∧
    ¬ (reporting false false [noticeWaiting]).notice.announces ringDef ∧
    (reporting false false [noticeWaiting]).notice.definition = some ringDef :=
  ⟨nextGrant_of (by decide), nextGrant_of (by decide), Or.inr (Or.inr rfl), nextGrant_of (by decide),
   by unfold NoticeUnit.announces; decide, rfl⟩

/-- Buffers 2 and 3 hold full chunks, of which buffer 3 has the lower number. -/
def buffered : State :=
  let s := copying slotted
  { s with copier := { s.copier with
    buffers := #v[none, none, some ⟨1, .full []⟩, some ⟨0, .full []⟩] } }

theorem witness_CopierBurstIssued :
    (copying slotted).nextGrant .copier 0 ∧ buffered.nextGrant .copier 0 ∧
    (copying slotted).definition 15 = some slottedDef ∧ (copying slotted).copier.buffers[(0 : Fin 4)] = none ∧
    buffered.copier.buffers[(3 : Fin 4)] = some ⟨0, .full []⟩ ∧
    ∀ (j : Fin 4) (b : Buffer), buffered.copier.buffers[j] = some b → j = 3 ∨ 0 < b.chunk := by
  refine ⟨nextGrant_of (by decide), nextGrant_of (by decide), rfl, rfl, rfl, fun j b h => ?_⟩
  have := (show ∀ j : Fin 4, (buffered.copier.buffers[j]).all (fun b => decide (j = 3) || decide (0 < b.chunk)) = true by
    decide) j
  simpa [h] using this

/-! ### Witnesses: completions -/

/-- The last piece of a request of master 15 in place 31. -/
def pieceInFlight (kind : Kind) : State :=
  placed 31 (pieceOf 0) (counted 1 0 (listed 15 [lastEntry kind .inFlight .issued] slotted))

/-- The same with slot 1 RETIRING in a window with no FILLING slot, HALTED. -/
def lastOfRetiring : State :=
  inState .halted { pieceInFlight .read with slots := slotted.slots.set 15 (some
    { noFilling false with slots := (noFilling false).slots.set 1 (some { slotIn .retiring with inFlight := 1 }) }) }

theorem witness_WindowPieceDone :
    (pieceInFlight .write).places[(31 : Fin 32)] = some (pieceOf 0) ∧
    (pieceInFlight .write).responses[(15 : Fin 16)].find? (fun e => decide (e.id = 0)) =
      some (lastEntry .write .inFlight .issued) ∧
    (lastEntry .write .inFlight .issued).pieces[0]? = some (lastPiece .issued) ∧
    (lastEntry .write .inFlight .issued).closing = false ∧ (lastPiece .issued).target = .slot 1 ∧
    (pieceInFlight .write).slot 15 1 = some { slotIn (.filling work) with inFlight := 1 } ∧
    lastOfRetiring.slot 15 1 = some { slotIn .retiring with inFlight := 1 } ∧
    lastOfRetiring.windows[(15 : Fin 16)].state ≠ .live := by decide

/-- A piece of a rolling window: a read of master 1 counted at position `q`, or a write counted nowhere. -/
def linePiece (q : Option Nat) (cond : Cond) (stage : PieceStage) : Piece :=
  { plainPiece 0x1000 1 [] 0 with target := .line 0 q, cond := cond, stage := stage }

def lineEntry (kind : Kind) (q : Option Nat) (cond : Cond) (stage : Stage) (piece : PieceStage) : Entry :=
  entry { read 0x1000 1 with kind := kind } stage [linePiece q cond piece]

def lineInFlight (kind : Kind) (q : Option Nat) : State :=
  placed 31 (pieceOf 0) (counted 1 0 (listed 15 [lineEntry kind q .clear .inFlight .issued] rolling))

theorem witness_WindowPieceDone_rolling :
    (lineInFlight .write none).responses[(15 : Fin 16)].find? (fun e => decide (e.id = 0)) =
      some (lineEntry .write none .clear .inFlight .issued) ∧
    (linePiece none .clear .issued).target = .line 0 none ∧
    (lineInFlight .read (some 2)).responses[(15 : Fin 16)].find? (fun e => decide (e.id = 0)) =
      some (lineEntry .read (some 2) .clear .inFlight .issued) ∧
    (lineInFlight .read (some 2)).rolls[(15 : Fin 16)] = some rollUnit ∧ rollingDef.targetPosition rollUnit.origin ≠ 2 := by
  decide

/-- A closing write of master 15 whose last piece is in flight. -/
def closingEntry (inDrain : Bool) : Entry :=
  { lastEntry .write .inFlight .issued with closing := true, inDrain := inDrain }

def closingInFlight (inDrain : Bool) (s : State) : State :=
  placed 31 (pieceOf 0) (counted 1 0 (listed 15 [closingEntry inDrain] s))

/-- 3 commits queued, none, and 4; in a drain set and in none. -/
theorem witness_WindowPieceDone_closing :
    (closingInFlight true (queueing 3 slotted)).oneWaiting ∧ (closingInFlight false slotted).oneWaiting ∧
    (closingInFlight true (queueing 3 slotted)).responses[(15 : Fin 16)].find? (fun e => decide (e.id = 0)) =
      some (closingEntry true) ∧
    (closingInFlight false slotted).responses[(15 : Fin 16)].find? (fun e => decide (e.id = 0)) =
      some (closingEntry false) ∧
    (closingEntry true).pieces = [lastPiece .issued] ∧ (closingEntry true).request.kind = .write ∧
    (closingEntry true).created = 0 ∧ (closingEntry true).unresolved = 0 ∧ (closingEntry true).anyTaken = false ∧
    (closingInFlight true (queueing 3 slotted)).slot 15 1 = some { slotIn (.filling work) with inFlight := 1 } ∧
    (closingInFlight true (queueing 3 slotted)).commits[(15 : Fin 16)].queue.length = 3 ∧
    (closingInFlight true (queueing 3 slotted)).commits[(15 : Fin 16)].current.isSome = true ∧
    (closingInFlight false slotted).commits[(15 : Fin 16)] = .reset ∧ (closingEntry false).inDrain = false ∧
    arrivalReason .live 4 = some .queueFull ∧ arrivalReason .halted 0 = some .halted ∧
    (closingInFlight true (queueing 4 slotted)).commits[(15 : Fin 16)].queue.length = 4 ∧
    { lineEntry .write none .clear .inFlight .issued with closing := true }.pieces = [linePiece none .clear .issued] :=
  ⟨by unfold State.oneWaiting; decide, by unfold State.oneWaiting; decide, by decide, by decide, rfl, rfl, rfl, rfl, rfl,
   by decide, by decide, by decide, by decide, rfl, rfl, rfl, by decide, rfl⟩

/-- The last count of a RETIRING slot of the LIVE window; master 14's write waits for a slot. -/
def lastOfRetiringLive : State :=
  listed 14 [entry lastBeat (.waiting (.slot true)) []] { pieceInFlight .read with slots := slotted.slots.set 15 (some
    { noFilling false with slots := (noFilling false).slots.set 1 (some { slotIn .retiring with inFlight := 1 }) }) }

theorem witness_WindowPieceDone_allocates :
    lastOfRetiringLive.oneWaiting ∧ lastOfRetiringLive.places[(31 : Fin 32)] = some (pieceOf 0) ∧
    lastOfRetiringLive.responses[(15 : Fin 16)].find? (fun e => decide (e.id = 0)) =
      some (lastEntry .read .inFlight .issued) ∧
    (lastEntry .read .inFlight .issued).closing = false ∧ (lastEntry .read .inFlight .issued).inSlotWait = false ∧
    lastOfRetiringLive.slot 15 1 = some { slotIn .retiring with inFlight := 1 } ∧
    lastOfRetiringLive.windows[(15 : Fin 16)].state = .live ∧ (noFilling false).filling = none ∧
    (noFilling false).sealed = none ∧ (lastOfRetiringLive.slot 15 0).all (fun y => decide (y.state ≠ .free)) = true ∧
    lastOfRetiringLive.definition 15 = some slottedDef ∧
    lastOfRetiringLive.current 14 = some (entry lastBeat (.waiting (.slot true)) []) ∧
    (entry lastBeat (.waiting (.slot true)) []).inSlotWait = true :=
  ⟨by unfold State.oneWaiting; decide, by decide, by decide, rfl, by decide, by decide, by decide, rfl, rfl, by decide,
   by decide, by decide, by decide⟩

/-- Master 15's read of the target, position 3, is in flight; master 14's write waits for it. -/
def lastTargetRead : State :=
  listed 14 [lineEntry .write none .visibility (.waiting .mapped) .unissued]
    { lineInFlight .read (some 3) with rolls := rolling.rolls.set 15 (some seenTarget) }

theorem witness_LastTargetReadReleasesWrites :
    lastTargetRead.oneWaiting ∧ lastTargetRead.link.part = .running ∧
    lastTargetRead.places[(31 : Fin 32)] = some (pieceOf 0) ∧
    lastTargetRead.responses[(15 : Fin 16)].find? (fun e => decide (e.id = 0)) =
      some (lineEntry .read (some 3) .clear .inFlight .issued) ∧
    lastTargetRead.rolls[(15 : Fin 16)] = some seenTarget ∧ rollingDef.targetPosition seenTarget.origin = 3 ∧
    seenTarget.reads[3]? = some 1 ∧ seenTarget.seeing = 0 ∧
    lastTargetRead.current 14 = some (lineEntry .write none .visibility (.waiting .mapped) .unissued) ∧
    (lineEntry .write none .visibility (.waiting .mapped) .unissued).hasCond .visibility = true :=
  ⟨by unfold State.oneWaiting; decide, rfl, by decide, by decide, by decide, by decide, rfl, rfl, by decide, by decide⟩

theorem witness_PieceFaultReported :
    (pieceInFlight .read).responses[(15 : Fin 16)].find? (fun e => decide (e.id = 0)) =
      some (lastEntry .read .inFlight .issued) ∧
    (lastEntry .read .inFlight .issued).inDrain = false ∧ (slotIn (.filling work)).state ≠ .retiring ∧
    (inState .halted (pieceInFlight .write)).responses[(15 : Fin 16)].find? (fun e => decide (e.id = 0)) =
      some (lastEntry .write .inFlight .issued) ∧
    (inState .halted (pieceInFlight .write)).windows[(15 : Fin 16)].state = .halted := by decide

/-- A producer's waiting write is there to be answered. -/
def faulting : State := listed 14 [entry lastBeat (.waiting .fence) []] (pieceInFlight .write)

theorem witness_WriteFaultHaltsWindow :
    faulting.oneWaiting ∧ faulting.places[(31 : Fin 32)] = some (pieceOf 0) ∧
    faulting.responses[(15 : Fin 16)].find? (fun e => decide (e.id = 0)) = some (lastEntry .write .inFlight .issued) ∧
    faulting.windows[(15 : Fin 16)].state = .live ∧ slottedDef.haltOnFault = true ∧
    (∀ u, faulting.slots[(15 : Fin 16)] = some u → u.filling = none ∨ u.sealed = none) := by
  refine ⟨by unfold State.oneWaiting; decide, by decide, by decide, by decide, rfl, fun u hu => ?_⟩
  have := (show (faulting.slots[(15 : Fin 16)]).all (fun u => decide (u.sealed = none)) = true by decide)
  exact Or.inr (by simpa [hu] using this)

def burst (j : Fin 4) : MemRequest := { owner := .copierBurst j, kind := .read, addr := 0, beats := 16, data := [] }

def copyOf (attempt : Attempt) (written : Nat) : Copy :=
  { window := 15, source := 0, dest := 1, block := 1, attempt := attempt, failed := false, dropped := false, next := 2,
    written := written }

/-- A block of two chunks is being copied into slot 1, with these two of the buffers in use. -/
def burstInFlight (attempt : Attempt) (written : Nat) (b0 b3 : Option BufferStage) : State :=
  placed 31 (burst 3)
    { backfilling with
      slots := backfilling.slots.set 15 (some { slotUnit with slots := slotUnit.slots.set 1 (some
        { slotIn (.filling { backfillWork with map := [.written, .copying, .notWritten, .copied] }) with inFlight := 1 }) })
      copier := { backfilling.copier with
        copy := some (copyOf attempt written), buffers := #v[b0.map (Buffer.mk 0), none, none, b3.map (Buffer.mk 1)] } }

theorem witness_CopierBurstCompleted :
    (burstInFlight .first 0 none (some .reading)).places[(31 : Fin 32)] = some (burst 3) ∧
    (burstInFlight .first 0 none (some .reading)).copier.copy = some (copyOf .first 0) ∧
    (burstInFlight .first 0 none (some .reading)).copier.buffers[(3 : Fin 4)] = some ⟨1, .reading⟩ ∧
    (burstInFlight .first 0 none (some (.writing []))).copier.buffers[(3 : Fin 4)] = some ⟨1, .writing []⟩ ∧
    slottedDef.chunks = 2 ∧ (copyOf .first 0).written + 1 ≠ slottedDef.chunks ∧
    (burstInFlight .first 0 none (some .reading)).definition 15 = some slottedDef ∧
    ((burstInFlight .first 0 none (some .reading)).slot 15 1).isSome = true ∧
    (∃ b', (burstInFlight .first 0 (some .reading) (some .reading)).copier.buffers[(0 : Fin 4)] = some b' ∧
      b'.inFlight = true) ∧
    (burstInFlight .first 0 (some (.full [])) (some .reading)).copier.buffers[(0 : Fin 4)] = some ⟨0, .full []⟩ ∧
    (Buffer.mk 0 (.full [])).inFlight = false :=
  ⟨by decide, rfl, rfl, rfl, by decide, by decide, by decide, by decide, ⟨_, rfl, rfl⟩, rfl, rfl⟩

/-- The same copy, its attempt failed or the copy dropped. -/
def endingCopy (failed dropped : Bool) (b0 : Option BufferStage) : State :=
  let s := burstInFlight .first 0 b0 (some .reading)
  { s with copier := { s.copier with copy := some { copyOf .first 0 with failed := failed, dropped := dropped } } }

/-- Not the last burst and the last one, of a failed attempt and of a dropped copy. -/
theorem witness_CopierBurstCompleted_later :
    (endingCopy true false none).places[(31 : Fin 32)] = some (burst 3) ∧
    (endingCopy true false none).copier.copy = some { copyOf .first 0 with failed := true } ∧
    (endingCopy false true none).copier.copy = some { copyOf .first 0 with dropped := true } ∧
    (endingCopy true true none).copier.buffers[(3 : Fin 4)] = some ⟨1, .reading⟩ ∧
    (∃ b', (endingCopy true false (some .reading)).copier.buffers[(0 : Fin 4)] = some b' ∧ b'.inFlight = true) ∧
    (∀ j' : Fin 4, j' ≠ 3 → (endingCopy false true none).copier.buffers[j'] = none) ∧
    (endingCopy false true none).copier.urgent = [] ∧ (∀ w : Fin 16, (endingCopy false true none).copier.jobs[w] = none) ∧
    ((endingCopy false true none).slot 15 1).map Slot.state =
      some (.filling { backfillWork with map := [.written, .copying, .notWritten, .copied] }) :=
  ⟨by decide, rfl, rfl, rfl, ⟨_, rfl, rfl⟩, by decide, rfl, by decide, by decide⟩

theorem witness_CopyEndReleasesWrites :
    let s := burstInFlight .first 1 none (some (.writing []))
    s.places[(31 : Fin 32)] = some (burst 3) ∧ s.copier.copy = some (copyOf .first 1) ∧
    (copyOf .first 1).written + 1 = slottedDef.chunks ∧
    (s.slot 15 1).map Slot.state =
      some (.filling { backfillWork with map := [.written, .copying, .notWritten, .copied] }) ∧
    s.copier.urgent = [] := ⟨by decide, rfl, by decide, by decide, rfl⟩

/-- Slot 1 is SEALED with tag 9 and block 1 is the last to be copied. -/
def sealedWork : Work := { backfillWork with map := [.written, .copying, .copied, .copied] }

def sealedUnit : SlotUnit :=
  { slotUnit with
    slots := slotUnit.slots.set 1 (some { slotIn (.sealed sealedWork 9) with inFlight := 1 })
    filling := none
    sealed := some 1 }

def lastOfSealed : State :=
  { burstInFlight .first 1 none (some (.writing [])) with slots := slotted.slots.set 15 (some sealedUnit) }

theorem witness_CopyEndReleasesWrites_sealed :
    lastOfSealed.places[(31 : Fin 32)] = some (burst 3) ∧ lastOfSealed.copier.copy = some (copyOf .first 1) ∧
    lastOfSealed.copier.buffers[(3 : Fin 4)] = some ⟨1, .writing []⟩ ∧ (copyOf .first 1).written + 1 = slottedDef.chunks ∧
    lastOfSealed.definition 15 = some slottedDef ∧ lastOfSealed.slots[(15 : Fin 16)] = some sealedUnit ∧
    sealedUnit.sealed = some 1 ∧ sealedUnit.front ≠ 1 ∧
    sealedUnit.slots[(1 : Fin 4)] = some { slotIn (.sealed sealedWork 9) with inFlight := 1 } ∧
    (∀ n : Nat, n ≠ 1 → sealedWork.map[n]? ≠ some BlockState.needsCopy ∧ sealedWork.map[n]? ≠ some BlockState.copying) ∧
    lastOfSealed.copier.urgent = [] ∧
    (∀ i : Fin 4, i ≠ 0 → (sealedUnit.slots[i]).all (fun z => decide (z.state ≠ .published (sealedUnit.counter + 1))) =
      true) := by
  refine ⟨by decide, rfl, rfl, by decide, by decide, by decide, rfl, by decide, rfl, fun n hn => ?_, rfl, by decide⟩
  match n with
  | 0 | 2 | 3 => decide
  | 1 => exact absurd rfl hn
  | n + 4 => simp [sealedWork, backfillWork]

theorem witness_RetryFaultFailsBackfill :
    let s := burstInFlight .retry 1 none (some .reading)
    s.copier.copy = some (copyOf .retry 1) ∧ s.windows[(15 : Fin 16)].state = .live ∧ slottedDef.haltOnFault = true ∧
    (s.slots[(15 : Fin 16)]).map SlotUnit.filling = some (some 1) ∧
    (s.slots[(15 : Fin 16)]).map SlotUnit.sealed = some none := by decide

/-! ### Witnesses: the notice ring -/

def noticeRequest : MemRequest := { owner := .noticeWrite, kind := .write, addr := 0x9000, beats := 1, data := [] }

/-- A notice write in flight, the ring's indices at the last entry. -/
def noticeInFlight (write : NoticeWrite) (stale : Bool) : State :=
  placed 31 noticeRequest { slotted with
    notice := { slotted.notice with write := 15, writtenBack := 14, inFlight := some ⟨write, stale⟩ } }

theorem witness_NoticeWriteCompleted :
    (noticeInFlight .record false).places[(31 : Fin 32)] = some noticeRequest ∧
    (noticeInFlight .record false).notice.inFlight = some ⟨.record, false⟩ ∧
    (noticeInFlight .record false).notice.ring = .active ∧
    (noticeInFlight .record false).notice.definition = some ringDef ∧
    (noticeInFlight (.writeBack 15) false).notice.inFlight = some ⟨.writeBack 15, false⟩ ∧
    (noticeInFlight .record true).notice.inFlight = some ⟨.record, true⟩ ∧
    (noticeInFlight (.writeBack 15) true).notice.inFlight = some ⟨.writeBack 15, true⟩ := by decide

/-- UNSET; masked; 32 pending; 31 pending. -/
theorem witness_PostingTaken :
    NoticeUnit.reset.ring ≠ .active ∧
    ({ slotted.notice with mask := 0xDFFF }).mask.getLsbD (NoticeBody.windowDrained 15).code = false ∧
    32 ≤ ({ slotted.notice with pending := List.replicate 32 noticeWaiting }).pending.length ∧
    ({ slotted.notice with pending := List.replicate 31 noticeWaiting }).pending.length < 32 ∧
    slotted.notice.ring = .active ∧ slotted.notice.mask.getLsbD (NoticeBody.resetDone).code = true := by decide

/-- INDEX_ERROR set, and its four ways down: a read, SET NOTICE RING, a hard reset, the end of a soft reset. -/
def indexErred : State := { slotted with notice := { slotted.notice with indexError := true } }

theorem witness_IndexErrorRecordsIgnoredStores_clears :
    indexErred.link.awaitRise = false ∧
    (∃ t, exec (.setNoticeRing (ringBytes ringDef)) indexErred = .next t ∧ t.link.result.result = .accepted ∧
      t.link.result.sequence = indexErred.link.result.sequence + 1) ∧
    (∃ t, exec (.softReset []) indexErred = .next t ∧ t.link.part = .running ∧ t.notice.indexError = false) ∧
    (∃ t, exec (.classification 0) (head 0 (store 0x9008 1) slotted) = .next t ∧ t.notice.indexError = true) :=
  ⟨rfl, ⟨_, rfl, by decide +kernel, by decide +kernel⟩, ⟨_, rfl, by decide +kernel, by decide +kernel⟩, ⟨_, rfl, by decide⟩⟩

/-- A holdoff of 65535 µs that has run exactly, and one short of it; the timebase has wrapped meanwhile. -/
def holdingOff (now : Micros) : State :=
  { slotted with timebase := now, notice := { slotted.notice with holdoff := .running 0xFFFF0002 } }

theorem witness_TimebaseAndHoldoff :
    (holdingOff 1).notice.holdoff = .running 0xFFFF0002 ∧ (holdingOff 1).notice.definition = some ringDef ∧
    ringDef.holdoff ≤ ((holdingOff 1).timebase - 0xFFFF0002).toNat ∧
    ((holdingOff 0).timebase - 0xFFFF0002).toNat < ringDef.holdoff ∧
    (∃ t, exec .issueGrant (holdingOff 1) = .next t) ∧ Instr.issueGrant ≠ .timebaseIncrement :=
  ⟨rfl, rfl, by decide, by decide, ⟨_, rfl⟩, by decide⟩

/-! ### Witnesses: frame starts and timers -/

theorem noneWaiting {s : State} (h : ∀ m, s.current m = none) {P : Fin 16 → Entry → Prop} :
    ∀ m e, s.current m = some e → P m e := by
  intro m e hm
  simp [h m] at hm

def resetting (s : State) : State := { s with link := { s.link with part := .resetting } }

def pinsOnTwo : SlotUnit :=
  { slotUnit with slots := slotUnit.slots.set 2 (some { slotIn (.published 4) with pins := 1 }) }

/-- The view of consumer 7 pins slot 2. -/
def pinning (s : State) : State := viewing pinnedToTwo { s with slots := s.slots.set 15 (some pinsOnTwo) }

/-- What a last pin frees, from a test on the slots below. -/
theorem frees_of {s : State} {w : Fin 16} {u : SlotUnit} {i : Fin 4} {x : Slot}
    (h : x.isPublished = true ∧ x.pins ≤ 1 ∧ x.hold = false ∧ x.inFlight = 0 ∧ x.waiting = 0 ∧
      s.windows[w].state = .live ∧ u.filling = none ∧ u.sealed = none)
    (hj : ∀ j < i, (u.slots[j]).all (fun y => decide (y.state ≠ .free)) = true) : s.frees w u i x := by
  obtain ⟨h1, h2, h3, h4, h5, h6, h7, h8⟩ := h
  exact ⟨h1, h2, h3, h4, h5, h6, h7, h8, fun j hji y hy => by simpa [hy] using hj j hji⟩

/-- Slot 2 has its last pin, and the window no slot to fill. -/
def lastPinned : SlotUnit :=
  { noFilling false with slots := (noFilling false).slots.set 2 (some { slotIn (.published 4) with pins := 1 }) }

/-- Consumer 7 holds that pin, and master 15 waits for a slot. -/
def freeing (v : View) : State :=
  listed 15 [entry (write 0x1000 1) (.waiting (.slot false)) []]
    (viewing v { slotted with slots := slotted.slots.set 15 (some lastPinned) })

/-- The slot of the last pin with a read of it in flight, and with a FILLING slot in the window. -/
def keptPinned : Slot := { slotIn (.published 4) with pins := 1, inFlight := 1 }

theorem witness_FrameLineStartsFrames_released :
    pinnedToTwo.pinsSlot 2 = true ∧ (2 : Fin 4) ≠ lastPinned.front ∧
    (freeing pinnedToTwo).slots[(15 : Fin 16)] = some lastPinned ∧
    (freeing pinnedToTwo).frees 15 lastPinned 2 { slotIn (.published 4) with pins := 1 } ∧
    (freeing pinnedToTwo).oneWaiting ∧ (freeing pinnedToTwo).definition 15 = some slottedDef ∧
    (freeing pinnedToTwo).freesNone 15 lastPinned keptPinned ∧ keptPinned.isPublished = true ∧
    (pinning slotted).freesNone 15 pinsOnTwo { slotIn (.published 4) with pins := 1 } :=
  ⟨by decide, by decide, by decide, frees_of (by decide) (by decide),
   by unfold State.oneWaiting; decide, by decide,
   .inr (.inr (.inr (.inl (by decide)))), rfl, .inr (.inr (.inr (.inr (.inr (.inr (.inl (by decide)))))))⟩

/-- Master 15 waits for a target that one view with this lag sees. -/
def watched (lag : Nat) (s : State) : State :=
  listed 15 [lineEntry .write none .visibility (.waiting .mapped) .unissued] (viewing (rollView lag (some 1))
    { s with rolls := s.rolls.set 15 (some { rollUnit with seeing := 1 }) })

/-- A lag of S sees the target, one of S - 1 does not. -/
theorem witness_FrameLineStartsFrames_seeing :
    (watched 2 rolling).oneWaiting ∧ (watched 2 rolling).view 15 7 = some (rollView 2 (some 1)) ∧
    rollingDef.staging ≤ 2 ∧ ¬ rollingDef.staging ≤ 1 ∧ (watched 2 rolling).slots[(15 : Fin 16)] = none ∧
    (watched 2 rolling).rolls[(15 : Fin 16)] = some { rollUnit with seeing := 1 } ∧
    ((watched 2 rolling).current 15).any (Entry.awaitsTarget 15) = true ∧
    (watched 1 rolling).view 15 7 = some (rollView 1 (some 1)) :=
  ⟨by unfold State.oneWaiting; decide, by decide⟩

theorem witness_FrameLineStartsFrames :
    (resetting slotted).link.part ≠ .running ∧ slotted.link.part = .running ∧
    slotted.consumers[(7 : Fin 8)] = some ⟨1, .line, 65535⟩ ∧ slotted.view 15 7 = some unpinned ∧
    slotted.windows[(15 : Fin 16)].state = .live ∧ slotted.slots[(15 : Fin 16)] = some slotUnit ∧
    rolling.view 15 7 = some unpinned ∧ rolling.slots[(15 : Fin 16)] = none ∧
    rolling.rolls[(15 : Fin 16)] = some rollUnit ∧
    (pinning slotted).view 15 7 = some pinnedToTwo ∧ (∀ o lag, pinnedToTwo.state ≠ .pinnedOrigin o lag) ∧
    (pinning slotted).slots[(15 : Fin 16)] = some pinsOnTwo := by
  refine ⟨by decide, rfl, rfl, by decide, by decide, rfl, by decide, rfl, by decide, by decide, ?_, by decide⟩
  intro o lag h
  cases h

/-- Master 15 waits with a stall timer that has run for `ran` of its 65535 µs. -/
def stalling (ran : Micros) (e : Entry) (s : State) : State :=
  let t := (listed 15 [e] s).updWindow 15 (fun x => { x with waiting := 1 })
  { t with stallTimers := t.stallTimers.set 15 (some ⟨0, 65535⟩), timebase := ran }

def slotWaiter : Entry := entry lastBeat (.waiting (.slot true)) []
def targetWaiter : Entry := lineEntry .write none .visibility (.waiting .mapped) .unissued

theorem witness_StallExpiryAnswersWait :
    (∀ x, (stalling 65534 slotWaiter (exhausted false)).stallTimers[(15 : Fin 16)] = some x →
      ((stalling 65534 slotWaiter (exhausted false)).timebase - x.start).toNat < x.limit) ∧
    (stalling 65535 slotWaiter (exhausted false)).stallTimers[(15 : Fin 16)] = some ⟨0, 65535⟩ ∧
    65535 ≤ ((stalling 65535 slotWaiter (exhausted false)).timebase - 0).toNat ∧
    (stalling 65535 slotWaiter (exhausted false)).current 15 = some slotWaiter ∧ slottedDef.policy = .stall ∧
    (stalling 65535 targetWaiter rolling).current 15 = some targetWaiter ∧ targetWaiter.hasCond .visibility = true ∧
    (∀ p ∈ targetWaiter.pieces, p.target = .line 0 none) ∧ rollingDef.policy = .stall := by
  refine ⟨fun x hx => ?_, by decide, by decide, by decide, rfl, by decide, by decide, by decide, rfl⟩
  cases (show some (Timer.mk 0 65535) = some x from hx)
  decide

def reclaiming (d : Definition) (s : State) : State :=
  s.updWindow 15 (fun x => { x with definition := some { d with policy := .reclaim } })

/-- The oldest PUBLISHED slot but the front is slot 2, to which consumer 7 is pinned. -/
def reclaimable : State :=
  stalling 65535 slotWaiter (reclaiming slottedDef (viewing pinnedToTwo { slotted with
    slots := slotted.slots.set 15 (some { noFilling false with slots := (noFilling false).slots.set 2 (some
      { slotIn (.published 4) with pins := 1 }) }) }))

/-- The same with a read of slot 2 in flight. -/
def readReclaimable : State := reclaimable.updSlot 15 2 (fun x => { x with inFlight := 1 })

def onlyFront : SlotUnit := { noFilling false with slots := (noFilling false).slots.set 2 (some (slotIn .retiring)) }

def nothingToReclaim : State :=
  stalling 65535 slotWaiter (reclaiming slottedDef { slotted with slots := slotted.slots.set 15 (some onlyFront) })

def laggingView : View := { unpinned with state := .pinnedOrigin 3 2 }

def targetReclaim : State :=
  stalling 65535 targetWaiter (reclaiming rollingDef (viewing laggingView
    { rolling with rolls := rolling.rolls.set 15 (some { rollUnit with seeing := 1 }) }))

/-- The one seeing view is counted, and no read of the target position is: the write that waits is released. -/
theorem witness_ReclaimTearsViews_released :
    targetReclaim.oneWaiting ∧ targetWaiter.awaitsTarget 15 = true ∧
    targetReclaim.rolls[(15 : Fin 16)] = some { rollUnit with seeing := 1 } ∧
    consumerNumbers.countP (fun c => (targetReclaim.view 15 c).any (fun v => v.sees rollingDef)) = 1 ∧
    rollUnit.readCount (rollingDef.targetPosition rollUnit.origin) = 0 :=
  ⟨by unfold State.oneWaiting; decide, by decide⟩

theorem witness_ReclaimTearsViews :
    nothingToReclaim.current 15 = some slotWaiter ∧
    nothingToReclaim.definition 15 = some { slottedDef with policy := .reclaim } ∧
    nothingToReclaim.slots[(15 : Fin 16)] = some onlyFront ∧
    (∀ i, i ≠ onlyFront.front → (onlyFront.slots[(i : Fin 4)]).all (fun y => !y.isPublished) = true) ∧
    reclaimable.current 15 = some slotWaiter ∧ (reclaimable.slot 15 2).map Slot.state = some (.published 4) ∧
    (∀ j : Fin 4, j ≠ 0 → j ≠ 2 → (reclaimable.slot 15 j).all (fun z => !z.isPublished) = true) ∧
    reclaimable.view 15 7 = some pinnedToTwo ∧ (reclaimable.slot 15 2).map Slot.pins = some 1 ∧
    consumerNumbers.countP (fun c => (reclaimable.view 15 c).any (fun v => v.pinsSlot 2)) = 1 ∧
    (reclaimable.slot 15 2).map Slot.hold = some false ∧ reclaimable.windows[(15 : Fin 16)].state = .live ∧
    (reclaimable.slots[(15 : Fin 16)]).map SlotUnit.filling = some none ∧
    (∀ j : Fin 4, (reclaimable.slot 15 j).all (fun z => decide (z.state ≠ .free)) = true) ∧
    (readReclaimable.slot 15 2).map Slot.inFlight = some 1 ∧
    (inState .halted reclaimable).windows[(15 : Fin 16)].state ≠ .live ∧
    targetReclaim.current 15 = some targetWaiter ∧
    targetReclaim.definition 15 = some { rollingDef with policy := .reclaim } ∧
    targetReclaim.view 15 7 = some laggingView ∧ rollingDef.staging ≤ 2 := by decide

/-- An idle timer of 65535 µs. -/
def idling (ran : Micros) (x : ViewState) (s : State) : State :=
  { viewing { unpinned with state := x, mark := some 3, timer := some 0 } s with timebase := ran }

theorem witness_IdleExpiryReleasesView :
    (idling 65534 .torn slotted).view 15 7 = some { unpinned with state := .torn, mark := some 3, timer := some 0 } ∧
    ((idling 65534 .torn slotted).timebase - 0).toNat < 65535 ∧
    65535 ≤ ((idling 65535 .torn slotted).timebase - 0).toNat ∧
    (idling 65535 (.pinnedSlot 2 4) (pinning slotted)).slots[(15 : Fin 16)] = some pinsOnTwo ∧
    (idling 65535 (.pinnedSlot 0 5) slotted).slots[(15 : Fin 16)] = some slotUnit ∧ (0 : Fin 4) = slotUnit.front ∧
    (idling 65535 (.pinnedOrigin 5 1) rolling).definition 15 = some rollingDef ∧ 1 < rollingDef.staging := by decide

/-- A released last pin: the slot is allocated, stays in use by a read, or joins a window that fills another; and a view
with a lag of S leaves seeing. -/
theorem witness_IdleExpiryReleasesView_freed :
    let s := idling 65535 (.pinnedSlot 2 4) (freeing pinnedToTwo)
    s.frees 15 lastPinned 2 { slotIn (.published 4) with pins := 1 } ∧ s.oneWaiting ∧
    s.slots[(15 : Fin 16)] = some lastPinned ∧ (2 : Fin 4) ≠ lastPinned.front ∧ s.definition 15 = some slottedDef ∧
    s.freesNone 15 lastPinned keptPinned ∧
    (idling 65535 (.pinnedSlot 2 4) (pinning slotted)).freesNone 15 pinsOnTwo { slotIn (.published 4) with pins := 1 } ∧
    (idling 65535 (.pinnedOrigin 3 2) (watched 2 rolling)).oneWaiting ∧ rollingDef.staging ≤ 2 ∧
    (idling 65535 (.pinnedOrigin 3 2) (watched 2 rolling)).rolls[(15 : Fin 16)] = some { rollUnit with seeing := 1 } :=
  ⟨frees_of (by decide) (by decide), by unfold State.oneWaiting; decide, by decide, by decide, by decide, .inr (.inr (.inr (.inl (by decide)))),
   .inr (.inr (.inr (.inr (.inr (.inr (.inl (by decide))))))), by unfold State.oneWaiting; decide, by decide, by decide⟩

/-- The read of a frame start from an older slot: its last pin, and one that keeps it in use. -/
theorem witness_ConsumerReadPinsFront_freed :
    let s := head 1 twoBlocks (firstBlock (freeing { pinnedToTwo with mark := some 1 }))
    s.windowHead 1 twoBlocks 15 slottedDef ∧ s.role slottedDef 1 = .consumer 7 ∧ s.oneWaiting ∧
    s.view 15 7 = some { pinnedToTwo with mark := some 1 } ∧ s.slots[(15 : Fin 16)] = some lastPinned ∧
    lastPinned.slots[lastPinned.front] = some (slotIn (.published 5)) ∧
    s.frees 15 lastPinned 2 { slotIn (.published 4) with pins := 1 } ∧ s.freesNone 15 lastPinned keptPinned :=
  ⟨windowHead_of (by decide) (by decide), by decide, by unfold State.oneWaiting; decide, by decide, by decide, by decide,
   frees_of (by decide) (by decide), .inr (.inr (.inr (.inl (by decide))))⟩

/-! ### Witnesses: resets, commits and drains -/

/-- The link with this frame in progress and these edges to come. -/
def onPins (frame : Option Frame) (edges : List LinkEdge) (s : State) : State :=
  { s with edges := edges, link := { s.link with frame := frame } }

/-- The seven bits of a byte that are in before its last. -/
def sevenBits (b : Byte) : List Bool := (List.range 7).map b.getMsbD

theorem witness_LinkFramesEdgeByEdge :
    (∃ t, exec (.hardReset true) slotted = .next t ∧ t.link.awaitRise = true ∧ t.link.frame = none ∧ t.pending = []) ∧
    (onPins none [.sselFall] slotted).pending = [] ∧ (onPins none [.sselFall] slotted).edges = [.sselFall] ∧
    slotted.link.frame = none ∧ slotted.link.awaitRise = false ∧ (sevenBits 0x83).length = 7 ∧
    (∃ x ∈ readFrames [15, 7], x.2.1 = 0x83 ∧ [15, 7].length = x.2.2 ∧ ([0x83, 15] ++ [7] : List Byte) = 0x83 :: [15, 7]) ∧
    (∀ x ∈ readFrames [15], x.2.1 = 0x83 → [15].length ≠ x.2.2) ∧
    (∃ x ∈ fixedLengthCommands [0xFF, 0x7F], x.2.1 = 0x0D) ∧ namesCommand 0x10 = false ∧ namesCommand 0x80 = false ∧
    (Instr.setNoticeMask [0xFF, 0x7F], (0x0D : Byte)) ∈ (fixedLengthCommands [0xFF, 0x7F]).map (fun x => (x.1, x.2.1)) ∧
    (sevenBits 0xA5).length < 8 := by
  refine ⟨⟨_, rfl, rfl, rfl, rfl⟩, ?_⟩
  decide

/-- What a state that a step answers holds. -/
def afterSteps {α : Type} (n : Nat) (s : State) (f : State → α) : Option α :=
  match steps n s with
  | .next t => some (f t)
  | _ => none

/-- R151, R153: SET NOTICE MASK clocked in bit by bit; seven bits of a further byte are dropped when SSEL rises. -/
theorem test_write_frame_on_pins :
    afterSteps 64 (onPins none ([.sselFall] ++ ([0x0D, 0xFF, 0x7F] : List Byte).flatMap byteEdges ++
      (sevenBits 0xA5).flatMap bitEdges ++ [.sselRise]) slotted)
      (fun t => (t.notice.mask, t.link.frame, t.link.result)) =
    some (0x7FFF, none, { lastCommand := some 0x0D, result := .accepted, param := 0, sequence := 1 }) := by decide

/-- R151, R152: READ RESULT is taken with the eighth bit of its code. -/
theorem test_read_frame_on_pins :
    afterSteps 16 (onPins none ([.sselFall] ++ (byteEdges 0x87).dropLast) slotted) (fun t => t.link.frame) =
    some (some ⟨[0x87], [], [0, 0, 0, 0, 0], false⟩) := by decide

/-- R151, R152: the levels of SDO from the take of a read command, at the falling edges before and after the dummy byte's
eight bits in: 0, then the first bit of the record's first byte, 0x80. -/
theorem test_record_follows_dummy :
    afterSteps 16 (onPins (some ⟨[0x87], [], [0, 0x80], false⟩) ([.sckFall] ++ (byteEdges 0xFF).dropLast) slotted)
      (fun t => t.link.sdo) = some (some false) ∧
    afterSteps 17 (onPins (some ⟨[0x87], [], [0, 0x80], false⟩) ([.sckFall] ++ byteEdges 0xFF) slotted)
      (fun t => t.link.sdo) = some (some true) := by decide

theorem witness_HardResetNoticeUnit :
    State.reset.notice.ring = .unset ∧ State.reset.notice.inFlight = none ∧
    (∃ t, exec (.flushNotices []) State.reset = .next t) ∧
    (∀ params, Instr.flushNotices [] ≠ .setNoticeRing params) := ⟨rfl, rfl, ⟨_, rfl⟩, fun _ => Instr.noConfusion⟩

/-- A commit of window 15 whose drain set has ended. -/
def taking (c : Commit) (s : State) : State :=
  { s with commits := s.commits.set 15 { queue := [], current := some ⟨c, 0⟩, fence := true } }

/-- The store that triggered the commit, HELD. -/
def heldStore : Entry :=
  { plainEntry (store 0x8000 publishWord) .held (.done []) with created := 1, unresolved := 1 }

def publishCommit : Commit := ⟨.publish, 0xFFFF, some 15, some (15, 0)⟩
def abandonCommit : Commit := ⟨.abandon, 0, none, none⟩

theorem witness_PublishTaken :
    let s := taking publishCommit (listed 15 [heldStore] slotted)
    s.oneWaiting ∧ s.commits[(15 : Fin 16)] = { queue := [], current := some ⟨publishCommit, 0⟩, fence := true } ∧
    s.noneFenced 15 ∧ s.slots[(15 : Fin 16)] = some slotUnit ∧ slotUnit.filling = some 1 ∧ slotUnit.front ≠ 1 ∧
    s.work 15 1 = some work ∧ s.definition 15 = some slottedDef ∧ work.written ≠ 0 ∧
    slottedDef.requiresFull = false ∧
    (∀ b : Nat, work.map[b]? ≠ some .needsCopy ∧ work.map[b]? ≠ some .copying) ∧
    (∀ (j : Fin 4), j ≠ slotUnit.front →
      (slotUnit.slots[j]).all (fun x => decide (x.state ≠ .published (slotUnit.counter + 1))) = true) ∧
    heldStore ∈ s.responses[(15 : Fin 16)] ∧ heldStore.stage = .held ∧ heldStore.unresolved = 1 := by
  refine ⟨by unfold State.oneWaiting; decide, rfl, noneWaiting (by decide), rfl, rfl, by decide, by decide, rfl, by decide,
    rfl, fun b => ?_, by decide,
    by decide, rfl, rfl⟩
  match b with
  | 0 | 1 | 2 | 3 => decide
  | b + 4 => simp [work]

/-- The FILLING slot with other work, or with a piece in flight. -/
def fillingWith (k : Work) (inFlight : Nat) : SlotUnit :=
  { slotUnit with slots := slotUnit.slots.set 1 (some { slotIn (.filling k) with inFlight := inFlight }) }

def takingWith (c : Commit) (k : Work) : State :=
  taking c { slotted with slots := slotted.slots.set 15 (some (fillingWith k 1)) }

/-- What every clause of the statement asks. -/
def Taking (c : Commit) (d : Definition) (s : State) : Prop :=
  s.commits[(15 : Fin 16)] = { queue := [], current := some ⟨c, 0⟩, fence := true } ∧ s.noneFenced 15 ∧
  s.windows[(15 : Fin 16)].state ≠ .draining ∧ s.definition 15 = some d

def fullDef : Definition := { slottedDef with geometry := .slotted 4 .requireFull [0x10000, 0x20000, 0x30000] }

def fullTaking : State := (takingWith publishCommit { work with written := 3 }).updWindow 15
  (fun x => { x with definition := some fullDef })

theorem witness_CommitTakeOutcomes :
    Taking publishCommit slottedDef (taking publishCommit (exhausted true)) ∧ (noFilling true).filling = none ∧
    Taking publishCommit slottedDef (takingWith publishCommit { work with written := 0 }) ∧
    (takingWith publishCommit { work with written := 0 }).work 15 1 = some { work with written := 0 } ∧
    Taking publishCommit fullDef fullTaking ∧ fullDef.requiresFull = true ∧ 3 < fullDef.units ∧
    fullTaking.work 15 1 = some { work with written := 3 } ∧
    Taking publishCommit slottedDef (takingWith publishCommit backfillWork) ∧
    (takingWith publishCommit backfillWork).work 15 1 = some backfillWork ∧
    (∃ b : Nat, backfillWork.map[b]? = some .needsCopy ∨ backfillWork.map[b]? = some .copying) ∧
    (fillingWith backfillWork 1).sealed = none ∧
    ((takingWith publishCommit backfillWork).slot 15 1).map Slot.state = some (.filling backfillWork) ∧
    Taking abandonCommit slottedDef (takingWith abandonCommit work) ∧
    (fillingWith work 1).slots[(1 : Fin 4)] = some { slotIn (.filling work) with inFlight := 1 } ∧
    Taking publishCommit rollingDef (taking publishCommit (viewing { unpinned with state := .pinnedOrigin 4 1 } rolling)) := by
  have taking_of : ∀ {c d s}, (∀ m, s.current m = none) →
      (s.commits[(15 : Fin 16)] = { queue := [], current := some ⟨c, 0⟩, fence := true } ∧
        s.windows[(15 : Fin 16)].state ≠ .draining ∧ s.definition 15 = some d) → Taking c d s :=
    fun h h' => ⟨h'.1, noneWaiting h, h'.2⟩
  refine ⟨taking_of (by decide) (by decide), rfl, taking_of (by decide) (by decide), by decide,
    taking_of (by decide) (by decide), rfl, by decide, by decide, taking_of (by decide) (by decide), by decide,
    ⟨1, Or.inl rfl⟩, rfl, by decide, taking_of (by decide) (by decide), rfl, taking_of (by decide) (by decide)⟩

/-- Slot 2 is FILLING and slot 1 FREE. -/
def fillingTwo : SlotUnit :=
  { slotUnit with
    slots := #v[some (slotIn (.published 5)), some (slotIn .free), some (slotIn (.filling work)), none], filling := some 2 }

/-- A commit whose drain set has ended, with a write of master 14 in a fence wait. -/
def refencing (c : Commit) (s : State) : State := taking c (listed 14 [entry lastBeat (.waiting .fence) []] s)

/-- An ABANDON of a slot no piece is in: the slot itself, and a lower-numbered FREE one, is allocated; and another commit
queued behind a take. -/
theorem witness_CommitTakeOutcomes_abandon :
    Taking abandonCommit slottedDef (taking abandonCommit slotted) ∧
    slotUnit.slots[(1 : Fin 4)] = some (slotIn (.filling work)) ∧ slotUnit.filling = some 1 ∧ slotUnit.sealed = none ∧
    slotUnit.front ≠ 1 ∧ (slotUnit.slots[(0 : Fin 4)]).all (fun y => decide (y.state ≠ .free)) = true ∧
    work.source = none ∧ slotted.windows[(15 : Fin 16)].state = .live ∧
    Taking abandonCommit slottedDef (taking abandonCommit { slotted with slots := slotted.slots.set 15 (some fillingTwo) }) ∧
    fillingTwo.filling = some 2 ∧ fillingTwo.slots[(1 : Fin 4)] = some (slotIn .free) ∧
    (queueing 1 slotted).commits[(15 : Fin 16)].queue ≠ [] := by
  refine ⟨⟨rfl, noneWaiting (by decide), by decide⟩, rfl, rfl, rfl, by decide, by decide, rfl, by decide,
    ⟨rfl, noneWaiting (by decide), by decide⟩, rfl, rfl, by decide⟩

/-- The front is pinned: a publication leaves no FREE slot. -/
def frontPinned : State := slotted.updSlot 15 0 (fun x => { x with pins := 1 })

/-- A fenced write of a DRAINING window, of a rolling one, and of a slotted one whose take leaves a FILLING slot or none. -/
theorem witness_CommitTakeOutcomes_fenced :
    (∀ s ∈ [inState .draining (refencing abandonCommit slotted), refencing publishCommit rolling,
        refencing abandonCommit slotted, refencing publishCommit frontPinned],
      s.oneWaiting ∧ (s.current 14).any (fun e => e.fencedAt 15 && decide (e.request.kind = .write)) = true) ∧
    (∃ t, exec (.commitTake 15) (refencing abandonCommit slotted) = .next t ∧
      (t.slots[(15 : Fin 16)]).map SlotUnit.filling = some (some 1) ∧ (t.work 15 1).isSome = true) ∧
    ∃ t, exec (.commitTake 15) (refencing publishCommit frontPinned) = .next t ∧
      (t.slots[(15 : Fin 16)]).map SlotUnit.filling = some none := by
  refine ⟨fun s hs => ?_, ⟨_, rfl, by decide +kernel, by decide +kernel⟩, ⟨_, rfl, by decide +kernel⟩⟩
  simp only [List.mem_cons, List.not_mem_nil, or_false] at hs
  rcases hs with rfl | rfl | rfl | rfl <;> exact ⟨by unfold State.oneWaiting; decide, by decide⟩

theorem nothingLeft_of {s : State} {w : Fin 16} (h : s.windows[w].inFlight = 0 ∧ s.windows[w].waiting = 0 ∧
    s.commits[w].current = none ∧ s.commits[w].queue = [] ∧ (∀ u ∈ s.copier.urgent, u.window ≠ w) ∧
    isCandidate s w = false) (h' : s.copier.copy = none) : s.nothingLeft w :=
  ⟨h.1, h.2.1, h.2.2.1, h.2.2.2.1, h.2.2.2.2.1, h.2.2.2.2.2, by simp [h']⟩

theorem witness_DrainCompletes :
    (inState .draining slotted).link.part = .running ∧ (inState .draining slotted).windows[(15 : Fin 16)].state = .draining ∧
    (inState .draining slotted).nothingLeft 15 ∧
    (inState .draining (counted 1 0 slotted)).windows[(15 : Fin 16)].inFlight ≠ 0 ∧
    (exhausted false).linkReady ∧ (exhausted false).windows[(15 : Fin 16)].state = .live ∧
    (noFilling false).filling = none ∧ (exhausted false).noneInSlotWait 15 ∧ (exhausted false).nothingLeft 15 ∧
    (counted 1 0 (exhausted false)).commits[(15 : Fin 16)].queue = [] ∧
    (counted 1 0 (exhausted false)).windows[(15 : Fin 16)].inFlight ≠ 0 ∧
    (listed 15 [slotWaiter] (exhausted false)).oneWaiting ∧
    (listed 15 [slotWaiter] (exhausted false)).current 15 = some slotWaiter ∧ slotWaiter.reachable = true :=
  ⟨rfl, by decide, nothingLeft_of (by decide) rfl, by decide, ⟨rfl, rfl⟩, by decide, rfl, noneWaiting (by decide),
   nothingLeft_of (by decide) rfl, by decide, by decide, by unfold State.oneWaiting; decide, by decide, by decide⟩

/-- Every window but 15 is UNDEFINED and without a definition. -/
theorem witness_SoftResetRunsToClearing :
    (pieceInFlight .write).linkReady ∧ (pieceInFlight .write).oneWaiting ∧
    (pieceInFlight .write).windows[(15 : Fin 16)].state.working = true ∧
    (pieceInFlight .write).windows[(15 : Fin 16)].inFlight ≠ 0 ∧
    (∀ w : Fin 16, (pieceInFlight .write).windows[w].state.working = true →
      ((pieceInFlight .write).definition w).isSome = true) ∧
    slotted.linkReady ∧ slotted.copier.copy = none ∧ slotted.notice.inFlight = none ∧
    (∀ w : Fin 16, slotted.windows[w].state.working = true →
      slotted.windows[w].inFlight = 0 ∧ slotted.windows[w].waiting = 0) ∧
    slotted.link.part = .running ∧ (resetting (pieceInFlight .write)).windows[(15 : Fin 16)].inFlight ≠ 0 ∧
    (resetting slotted).link.part = .resetting ∧ (resetting slotted).copier.copy = none ∧
    (resetting slotted).notice.inFlight = none ∧
    ∀ w : Fin 16, (resetting slotted).windows[w].state.working = true →
      (resetting slotted).windows[w].inFlight = 0 ∧ (resetting slotted).windows[w].waiting = 0 :=
  ⟨⟨rfl, rfl⟩, by unfold State.oneWaiting; decide, by decide, by decide, by decide, ⟨rfl, rfl⟩, rfl, rfl, by decide, rfl,
   by decide, rfl, rfl, rfl, by decide⟩

/-- A piece of master 15 is in flight, and master 14 is in a timed slot wait. -/
def waitingToo : State :=
  let t := listed 14 [slotWaiter] (pieceInFlight .write)
  { t with stallTimers := t.stallTimers.set 14 (some ⟨0, 65535⟩) }

theorem witness_SoftResetRunsToClearing_waits :
    waitingToo.linkReady ∧ waitingToo.oneWaiting ∧ waitingToo.windows[(15 : Fin 16)].state.working = true ∧
    waitingToo.windows[(15 : Fin 16)].inFlight ≠ 0 ∧ waitingToo.current 14 = some slotWaiter ∧
    slotWaiter.window = some 15 ∧ slotWaiter.reachable = true ∧ slotWaiter.pieces = [] ∧
    (∀ m, (waitingToo.current m).all (fun e => e.pieces.isEmpty || !e.inSlotWait) = true) ∧
    waitingToo.stallTimers[(14 : Fin 16)] = some ⟨0, 65535⟩ :=
  ⟨⟨rfl, rfl⟩, by unfold State.oneWaiting; decide, by decide, by decide, by decide, rfl, by decide, rfl, by decide,
   by decide⟩

/-- R164: a soft reset whose conditions hold at its take clears within it. -/
theorem test_soft_reset_clears_at_its_take :
    (match exec (.softReset []) slotted with
      | .next t => (t.link.part, t.windows[(15 : Fin 16)].state, t.notice.pending.map Notice.body)
      | _ => (.resetting, .undefined, [])) = (.running, .defined, [.resetDone]) := by decide +kernel

/-! ### Witnesses: the link -/

theorem slottedDef_wf : slottedDef.wf := by
  refine ⟨by decide, by decide, by decide, by decide, by decide, ?_, ?_⟩
  · intro a ha
    cases ha
    decide
  · refine ⟨by decide, by decide, by decide, by decide, ?_⟩
    intro a ha
    simp only [List.mem_cons, List.not_mem_nil, or_false] at ha
    rcases ha with rfl | rfl | rfl <;> decide

theorem rollingDef_wf : rollingDef.wf := by
  refine ⟨by decide, by decide, by decide, by decide, by decide, ?_, ?_⟩
  · intro a ha
    cases ha
    decide
  · exact (show 1 ≤ 8 ∧ 2 ≤ 4 ∧ 4 ≤ 48 ∧ 1 ≤ 2 ∧ 2 ≤ 8 ∧ 1 ≤ 8 ∧ (0x20000 : Addr).toNat % rollingDef.blockSize = 0 ∧
      (0x20000 : Addr).toNat + (1 + 4 + 2 + 1) * rollingDef.blockSize ≤ 2 ^ 40 by decide)

theorem consumers_fit {s : State} {d : Definition}
    (h : ∀ c : Fin 8, (s.consumers[c]).all (fun b => !d.producers.getLsbD b.master.val) = true) :
    ∀ c b, d.consumers.getLsbD (c : Fin 8).val = true → s.consumers[c] = some b →
      d.producers.getLsbD b.master.val = false := by
  intro c b _ hb
  have := h c
  simpa [hb] using this

theorem slottedDef_fits : slottedDef.fits 15 (inState .defined slotted) :=
  ⟨trivial, consumers_fit (by decide), by decide, by decide⟩

theorem rollingDef_fits : rollingDef.fits 15 (inState .defined rolling) :=
  ⟨(show 1 + 4 + 2 + 1 ≤ 64 by decide), consumers_fit (by decide), by decide, by decide⟩

theorem witness_DefineWindowStoresDefinition :
    (inState .defined slotted).linkReady ∧ (inState .defined slotted).windows[(15 : Fin 16)].state = .defined ∧
    slottedDef.wf ∧ slottedDef.fits 15 (inState .defined slotted) ∧ rollingDef.wf ∧
    rollingDef.fits 15 (inState .defined rolling) ∧ slottedDef.givenBy (definitionBytes slottedDef) ∧
    rollingDef.givenBy (definitionBytes rollingDef) ∧
    { rollingDef with limit := 1000, haltOnFault := true }.givenBy ((definitionBytes rollingDef).take 18 ++
      [0, 0, 0xFF] ++ (definitionBytes rollingDef).drop 21) :=
  ⟨⟨rfl, rfl⟩, by decide, slottedDef_wf, slottedDef_fits, rollingDef_wf, rollingDef_fits,
   ⟨65535, 1, by decide, .inl rfl, by decide⟩, ⟨65535, 1, by decide, .inl rfl, by decide⟩,
   ⟨0, 0xFF, by decide, .inr ⟨rfl, rfl⟩, by decide⟩⟩

/-- R25, R167: a stall limit given as 0 is 1000 µs; R169: the bytes at 20 to 22 of the frame. -/
theorem test_define_window_defaults :
    let d := definitionOf (0x01 :: 15 :: ((definitionBytes rollingDef).take 18 ++ [0, 0, 0x80] ++
      (definitionBytes rollingDef).drop 21))
    d.limit = 1000 ∧ d.haltOnFault = true := by decide

def backfillDef : Definition := { slottedDef with geometry := .slotted 4 .backfill [0x10000, 0x20000, 0x30000] }

def backfillDefined : State := inState .defined (liveWith backfillDef)

theorem witness_EnableWindowTaken :
    (inState .defined slotted).linkReady ∧ (inState .defined slotted).definition 15 = some slottedDef ∧
    slottedDef.wf ∧ slottedDef.fits 15 (inState .defined slotted) ∧
    (∀ c : Fin 8, slottedDef.consumers.getLsbD c.val = true → (inState .defined slotted).consumers[c].isSome = true) ∧
    slottedDef.word ≠ none ∧ (inState .defined slotted).noneInSlotWait 15 ∧
    slottedDef.geometry = .slotted 4 .asIs [0x10000, 0x20000, 0x30000] ∧ (2 : Fin 4).val < 3 ∧
    rollingDef.wf ∧ rollingDef.fits 15 (inState .defined rolling) ∧ (inState .defined rolling).noneInSlotWait 15 ∧
    backfillDefined.definition 15 = some backfillDef ∧ backfillDef.fits 15 backfillDefined ∧
    (copying backfillDefined).copier.copy.isSome = true ∧ backfillDefined.copier.copy = none ∧
    backfillDefined.copier.urgent = [] ∧ ∀ w', w' ≠ 15 → isCandidate backfillDefined w' = false :=
  ⟨⟨rfl, rfl⟩, rfl, slottedDef_wf, slottedDef_fits, by decide, by decide, noneWaiting (by decide), rfl, by decide,
   rollingDef_wf, rollingDef_fits, noneWaiting (by decide), rfl,
   ⟨trivial, consumers_fit (by decide), by decide, by decide⟩, rfl, rfl, rfl, by decide⟩

/-- Slot 1 is FREE in a HALTED window without a FILLING slot. -/
def resumable : SlotUnit := { noFilling false with slots := (noFilling false).slots.set 1 (some (slotIn .free)) }

theorem witness_WindowTableCommandsTaken :
    (inState .defined slotted).linkReady ∧ (inState .defined slotted).windows[(15 : Fin 16)].state = .defined ∧
    (0xFFFFFFFFF8 : Addr).toNat % 8 = 0 ∧
    (∀ g ∈ (inState .defined slotted).windowRegions (some 15) ++ (inState .defined slotted).ringRegions ++
      ({ slottedDef with word := none }).regions.map Prod.snd, touches (wordRegion 0xFFFFFFFFF8) g = false) ∧
    1 ≤ 65535 ∧ (inState .halted (exhausted false)).windows[(15 : Fin 16)].state = .halted ∧
    (∀ i : Fin 4, ((noFilling false).slots[i]).all (fun x => decide (x.state ≠ .free)) = true) ∧
    resumable.filling = none ∧ resumable.sealed = none ∧ resumable.slots[(1 : Fin 4)] = some (slotIn .free) ∧
    (∀ j : Fin 4, j < 1 → (resumable.slots[j]).all (fun y => decide (y.state ≠ .free)) = true) ∧
    slottedDef.isBackfill = false ∧ (inState .halted (exhausted false)).noneInSlotWait 15 :=
  ⟨⟨rfl, rfl⟩, by decide, by decide, by decide, by decide, by decide, by decide, rfl, rfl, rfl, by decide, rfl,
   noneWaiting (by decide)⟩

theorem witness_LinkCommitsArrive :
    slotted.linkReady ∧ slotted.windows[(15 : Fin 16)].state = .live ∧ slotted.definition 15 = some slottedDef ∧
    slottedDef.isSlotted = true ∧ 4 ≤ (queueing 4 slotted).commits[(15 : Fin 16)].queue.length ∧
    (queueing 3 slotted).commits[(15 : Fin 16)].queue.length < 4 ∧
    (queueing 3 slotted).commits[(15 : Fin 16)].current.isSome = true ∧
    (pieceInFlight .write).commits[(15 : Fin 16)].queue = [] ∧
    (pieceInFlight .write).commits[(15 : Fin 16)].current = none ∧
    0 < (pieceInFlight .write).responses[(15 : Fin 16)].countP
      (fun e => decide (e.window = some 15) && decide (e.request.kind = .write) && decide (e.stage = .inFlight)) ∧
    slotted.commits[(15 : Fin 16)] = .reset ∧ slotted.drainCount 15 = 0 :=
  ⟨⟨rfl, rfl⟩, by decide, rfl, rfl, by decide, by decide, by decide, rfl, rfl, by decide, rfl, by decide⟩

theorem witness_ConsumerBindingsTaken :
    State.reset.linkReady ∧
    (∀ w d, State.reset.windows[(w : Fin 16)].state.working = true → State.reset.definition w = some d →
      d.consumers.getLsbD (7 : Fin 8).val = false) ∧
    (∀ (c' : Fin 8) b, c' ≠ 7 → State.reset.consumers[c'] = some b → b.master ≠ 15) ∧
    (∀ w d, State.reset.windows[(w : Fin 16)].state ≠ .undefined → State.reset.definition w = some d →
      d.producers.getLsbD (15 : Fin 16).val = true → d.consumers.getLsbD (7 : Fin 8).val = false) := by
  have hd : ∀ w, State.reset.definition w = none := by decide
  have hc : ∀ c : Fin 8, State.reset.consumers[c] = none := by decide
  refine ⟨⟨rfl, rfl⟩, fun w d _ h => ?_, fun c' b _ h => ?_, fun w d _ h => ?_⟩
  · simp [hd w] at h
  · rw [hc c'] at h
    cases h
  · simp [hd w] at h

theorem witness_NoticeRingCommandsTaken :
    slotted.linkReady ∧ ringDef.wf ∧ ringDef.givenBy (ringBytes ringDef) ∧
    { ringDef with threshold := 4, holdoff := 100 }.givenBy ((ringBytes ringDef).take 17 ++ [0, 1, 0xFF, 0xFF]) ∧
    (ringDef.regions.map Prod.snd).Pairwise (fun a b => touches a b = false) ∧
    (∀ a ∈ ringDef.regions.map Prod.snd, ∀ b ∈ slotted.windowRegions none, touches a b = false) ∧
    (List.replicate 5 (0 : Byte)).length = 5 ∧ (List.replicate 14 (0xFF : Byte)).length = 14 ∧
    slotted.notice.ring = .active :=
  ⟨⟨rfl, rfl⟩, by unfold RingDef.wf; decide, ⟨_, _, _, rfl, .inl (by decide), .inl ⟨by decide, by decide⟩⟩,
   ⟨0, 1, [0xFF, 0xFF], by decide, .inr ⟨rfl, rfl⟩, .inr ⟨rfl, rfl, rfl⟩⟩, by decide, by decide, by decide, by decide,
   rfl⟩

/-- R137, R169: a threshold given as 0 is 4, and holdoff mode 1 is 100 µs whatever the holdoff bytes. -/
theorem test_set_notice_ring_defaults :
    let d := ringOf (0x0C :: ((ringBytes ringDef).take 17 ++ [0, 1, 0xFF, 0xFF]))
    d.threshold = 4 ∧ d.holdoff = 100 := by decide

/-- A wrong length, a known frame while RESETTING, an unknown code, window 16, and windows not in the state asked for. -/
theorem witness_RefusedCommandsChangeOnlyResult :
    slotted.link.awaitRise = false ∧ (∀ x ∈ fixedLengthCommands [1, 2], (x.2.1 = 0x05) → [1, 2].length + 1 ≠ x.2.2) ∧
    (∃ x ∈ fixedLengthCommands [], ([] : List Byte).length + 1 = x.2.2) ∧ (resetting slotted).link.part = .resetting ∧
    namesCommand 0x10 = false ∧ ([1] : List Byte).length < 2 ∧ ((15 : Byte) :: List.replicate 29 2)[1]? = some 2 ∧
    ((15 : Byte) :: List.replicate 29 2).length ≠ 31 ∧
    16 ≤ (16 : Byte).toNat ∧ (∃ x ∈ fixedLengthCommands [16], [16].length + 1 = x.2.2 ∧ x.2.1 = 0x05) ∧
    [byteOf (15 : Fin 16)] = byteOf (15 : Fin 16) :: [] ∧ State.reset.windows[(15 : Fin 16)].state = .undefined ∧
    defineLengthOk (0x01 :: byteOf (15 : Fin 16) :: definitionBytes slottedDef) = true ∧
    slotted.windows[(15 : Fin 16)].state.working = true := by decide

theorem firstBreach_of {checks : List (Prop × Nat)} {i : Nat} (n : Nat) {p : Prop} (h : checks[n]? = some (p, i))
    (hp : ¬ p) (hb : ∀ c ∈ checks.take n, c.1) : FirstBreach checks i :=
  ⟨checks.take n, p, checks.drop (n + 1), by
    obtain ⟨h', h⟩ := List.getElem?_eq_some_iff.1 h
    rw [← h, List.cons_getElem_drop_succ, List.take_append_drop], hp, hb⟩

/-- DEFINE WINDOW: busy, window 16, and a size code of 9, the checks before it holding. -/
def badSize : List Byte := byteOf (15 : Fin 16) :: definitionBytes { slottedDef with sizeCode := 9 }

theorem witness_RefusedCommandsChangeOnlyResult_define :
    defineLengthOk (0x01 :: 16 :: definitionBytes slottedDef) = true ∧ 16 ≤ (16 : Byte).toNat ∧
    (resetting slotted).link.part = .resetting ∧ defineLengthOk (0x01 :: badSize) = true ∧
    State.reset.windows[(15 : Fin 16)].state.working = false ∧ FirstBreach (defineChecks (0x01 :: badSize)) 4 := by
  refine ⟨by decide, by decide, rfl, by decide, by decide, firstBreach_of 1 rfl (by decide) fun c hc => ?_⟩
  rw [List.mem_singleton.1 hc]
  exact Or.inl (by decide)

/-- A rolling window of 65 lines. -/
def longDef : Definition := { rollingDef with geometry := .rolling 8 48 8 1 0x20000 }

/-- The relational checks at 65 lines; ENABLE WINDOW with front slot 3 of 3; a consumer of a LIVE window and of none; a
frame source of 3; a ring of 17 entries; a ring whose produced-index word lies in it. -/
theorem witness_RefusedCommandsChangeOnlyResult_parameters :
    longDef.wf ∧ FirstBreach (relationalChecks 15 longDef State.reset) 15 ∧
    (inState .defined slotted).definition 15 = some slottedDef ∧ slottedDef.wf ∧
    FirstBreach (enableChecks 15 slottedDef 3 (inState .defined slotted)) 2 ∧
    (0x8001 : Addr) ≠ BitVec.allOnes 40 ∧ (0x8001 : Addr).toNat % 8 ≠ 0 ∧
    (∃ g ∈ ({ slottedDef with word := none }).regions.map Prod.snd, touches (wordRegion 0x13F8) g = true) ∧
    rolling.windows[(15 : Fin 16)].state = .live ∧ rollingDef.isSlotted = false ∧ 8 ≤ (8 : Byte).toNat ∧
    (∃ w d, slotted.windows[(w : Fin 16)].state.working = true ∧ slotted.definition w = some d ∧
      d.consumers.getLsbD (7 : Fin 8).val = true) ∧
    (¬ ∃ w d, State.reset.windows[(w : Fin 16)].state.working = true ∧ State.reset.definition w = some d ∧
      d.consumers.getLsbD (7 : Fin 8).val = true) ∧
    FirstBreach (bindChecks 7 15 3 State.reset) 3 ∧ FirstBreach (bindChecks 7 16 1 State.reset) 2 ∧
    (List.replicate 5 (0 : Byte) ++ [17, 0] ++ List.replicate 14 0).length = 21 ∧
    FirstBreach (ringChecks (0x0C :: (List.replicate 5 0 ++ [17, 0] ++ List.replicate 14 0))) 2 ∧
    { ringDef with produced := 0x50000 }.wf ∧
    FirstBreach (overlapChecks [] { ringDef with produced := 0x50000 }.regions ++
      { ringDef with produced := 0x50000 }.regions.map
        (fun (x : Nat × Region) => (∀ g ∈ State.reset.windowRegions none, touches x.2 g = false, x.1))) 3 ∧
    State.reset.notice.ring ≠ .active := by
  have hd : ∀ w, State.reset.definition w = none := by decide
  have hc : ∀ c : Fin 8, State.reset.consumers[c] = none := by decide
  refine ⟨⟨by decide, by decide, by decide, by decide, by decide, fun a ha => ?_, ?_⟩,
    firstBreach_of 0 rfl (show ¬ 8 + 48 + 8 + 1 ≤ 64 by decide) (by simp), rfl, slottedDef_wf,
    firstBreach_of 0 rfl (show ¬ 3 < 3 by decide) (by simp), by decide, by decide, by decide, by decide, rfl,
    by decide, ⟨15, slottedDef, by decide, rfl, by decide⟩, ?_, firstBreach_of 3 rfl (by decide) fun c h => ?_,
    firstBreach_of 0 rfl (by decide) (by simp), by decide, firstBreach_of 0 rfl (by decide) (by simp),
    by unfold RingDef.wf; decide, firstBreach_of 1 rfl (by decide) fun c h => ?_, by decide⟩
  · cases ha
    decide
  · exact (show 8 ≤ 8 ∧ 2 ≤ 48 ∧ 48 ≤ 48 ∧ 1 ≤ 8 ∧ 8 ≤ 8 ∧ 1 ≤ 8 ∧ (0x20000 : Addr).toNat % longDef.blockSize = 0 ∧
      (0x20000 : Addr).toNat + (8 + 48 + 8 + 1) * longDef.blockSize ≤ 2 ^ 40 by decide)
  · rintro ⟨w, d, _, h, _⟩
    simp [hd w] at h
  · simp only [bindChecks, List.take, List.mem_cons, List.not_mem_nil, or_false] at h
    rcases h with rfl | rfl | rfl
    · decide
    · intro c' b _ h
      simp [hc c'] at h
    · intro w d _ h
      simp [hd w] at h
  · rw [List.mem_singleton.1 h]
    decide

theorem witness_ReadCommandsCapture :
    slotted.link.awaitRise = false ∧ 16 ≤ (16 : Byte).toNat ∧ 8 ≤ (8 : Byte).toNat ∧
    (∃ x ∈ readFrames [], ([] : List Byte).length < x.2.2) ∧ (∃ x ∈ readFrames [15], [15].length < x.2.2) := by decide

/-! ### Witnesses: the whole machine -/

theorem witness_OnlyTheirCommandsChangeThem :
    (∃ t, exec (.readResult []) slotted = .next t) ∧ (∀ m, Instr.readResult [] ≠ .classification m) ∧
    (∀ m, Instr.readResult [] ≠ .responseSent m) ∧ (∀ b, Instr.readResult [] ≠ .hardReset b) ∧
    Instr.readResult [] ≠ .issueGrant ∧ configures (.readResult []) = false ∧ configures .softResetClearing = false ∧
    (∀ params, ∀ x ∈ readFrames params, x.1 ≠ .softResetClearing) :=
  ⟨⟨_, rfl⟩, fun _ => Instr.noConfusion, fun _ => Instr.noConfusion, fun _ => Instr.noConfusion, by decide, rfl, rfl,
   fun params => by simp [readFrames]⟩

theorem witness_AttnFollowsIndices :
    (slotted.notice.attn = true ↔ slotted.notice.ring = .faulted ∨
      (slotted.notice.ring = .active ∧ slotted.notice.writtenBack ≠ slotted.notice.consumed)) ∧
    (∃ t, exec (.classification 0) (head 0 (store 0x9008 0) (fullRing slotted)) = .next t ∧ t.notice.attn = false) :=
  ⟨by decide, ⟨_, rfl, by decide⟩⟩

/-- 8 requests queued, 16 listed, 4 commits queued, 32 notices pending, 255 lost. -/
def atTheBounds : State :=
  let s := queueing 4 (listed 15 ((List.range 16).map (fun i => { answered with id := i })) slotted)
  { s with
    intake := s.intake.set 15 (List.replicate 8 (read 0 1))
    notice := { s.notice with pending := List.replicate 32 noticeWaiting, lost := 255 }
    pending := [.responseSent 15] }

theorem witness_ListsStayBounded :
    atTheBounds.bounded ∧ atTheBounds.oneWaiting ∧ atTheBounds.notice.pending.length ≤ 32 ∧
    atTheBounds.notice.lost ≤ 255 ∧ (∃ t, step atTheBounds = .next t) ∧
    (resetting (endingCopy false true none)).copierStopped ∧
    ∃ t, step { resetting (endingCopy false true none) with
      pending := [.copierBurstCompletion 31 .done []] } = .next t := by
  refine ⟨⟨by decide, by decide, by unfold CommitState.wf; decide⟩, by unfold State.oneWaiting; decide, by decide,
    by decide, ⟨_, rfl⟩, fun _ => ⟨rfl, by decide, fun y hy => ?_⟩, ⟨_, rfl⟩⟩
  cases (show some { copyOf .first 0 with dropped := true } = some y from hy)
  rfl

theorem witness_GuardedRegionsStayApart :
    slotted.regionsApart ∧ (slotted.notice.ring = .unset → slotted.notice.definition = none) ∧
    ∃ t, step { slotted with pending := [.publish []] } = .next t :=
  ⟨by unfold State.regionsApart; decide, by decide, ⟨_, rfl⟩⟩

theorem witness_RingIndicesStayInRange :
    (noticeInFlight (.writeBack 15) false).notice.indexed ∧
    ∃ t, step { noticeInFlight (.writeBack 15) false with pending := [.writeBackCompletion 31 .done] } = .next t := by
  refine ⟨⟨by decide, fun d hd => ?_, fun f hf _ => ⟨ringDef, rfl, fun v hv => ?_⟩⟩, ⟨_, rfl⟩⟩
  · cases (show some ringDef = some d from hd)
    decide
  · cases (show some (NoticeInFlight.mk (.writeBack 15) false) = some f from hf)
    cases (show NoticeWrite.writeBack 15 = .writeBack v from hv)
    decide

/-! ### Formats and geometry against the manual's own numbers (R89, R171, R172) -/

/-- Section 10.6, "A record, read back". -/
theorem test_record_read_back :
    recordBytes ⟨.published 1 2 2 8, 0x000186A0⟩ 3 37 =
      [0x01, 0x03, 0x25, 0x00, 0xA0, 0x86, 0x01, 0x00, 0x01, 0x02, 0x08, 0x00, 0x02, 0x00, 0x00, 0x00] := by decide

/-- Section 5.1, "Example of a geometry". -/
def geometryDef : Definition :=
  { rollingDef with base := 0x4800000000, sizeCode := 2, geometry := .rolling 1 3 2 1 0x20000000 }

/-- Its table, one row per origin: current view, producer view, target position. -/
theorem test_geometry_table :
    (List.range 5).map (fun o => ([1, 2, 3].map (geometryDef.ringPosition o),
        [1, 2, 3].map (geometryDef.ringPosition ((o + 1) % 5)), geometryDef.targetPosition o)) =
      [([some 0, some 1, some 2], [some 1, some 2, some 3], 3),
       ([some 1, some 2, some 3], [some 2, some 3, some 4], 4),
       ([some 2, some 3, some 4], [some 3, some 4, some 0], 0),
       ([some 3, some 4, some 0], [some 4, some 0, some 1], 1),
       ([some 4, some 0, some 1], [some 0, some 1, some 2], 2)] := by decide

/-- Its note 2: a bystander's read of virtual line 3 at origin 2. -/
theorem test_geometry_address :
    (mapToLine geometryDef 2 true (plainPiece 0x4800000C00 1 [] 3)).phys = 0x20001400 := by decide

/-- R171: tag 7 and the action PUBLISH; an unknown action. -/
theorem test_commit_word : commitTag ⟨0x10007, 0xFF⟩ = 7 ∧ commitAction ⟨0x10007, 0xFF⟩ = some .publish ∧
    commitAction ⟨0x20000, 0xFF⟩ = some .abandon ∧ commitAction ⟨0x30000, 0xFF⟩ = none := by decide

/-- R171: the produced-index word. -/
theorem test_produced_index_word : beatOf (producedBytes 0x0FFF) = ⟨0x0FFF, 0xFF⟩ := by decide

/-- R169: a DEFINE WINDOW frame written out byte by byte defines the window of these tests. -/
theorem test_define_window_frame :
    definitionOf ([0x01, 0x0F, 0x01, 0x00, 0x10, 0x00, 0x00, 0x00, 0x00, 0x00, 0x80, 0x80, 0x00, 0x01, 0x00, 0x80, 0x00,
      0x00, 0x00, 0x01, 0xFF, 0xFF, 0x01, 0x04, 0x03, 0x01, 0x00, 0x00, 0x01, 0x00, 0x00, 0x00, 0x00, 0x02, 0x00, 0x00,
      0x00, 0x00, 0x03, 0x00, 0x00]) = slottedDef := by decide

/-- R161: READ RESULT after reset names no command: code 0, ACCEPTED. -/
theorem test_read_result_after_reset :
    (match exec (.readResult []) State.reset with
      | .next t => t.link.frame
      | _ => none) = some ⟨[0x87], [], [0, 0, 0, 0, 0], false⟩ := by decide

/-- R7: a BAD_REQUEST is answered DENIED with zero data. -/
theorem test_page_crossing_answer :
    (match exec (.classification 15) (head 15 (read 0xFF8 2) slotted) with
      | .next t => t.responses[(15 : Fin 16)].map Entry.stage
      | _ => []) = [.complete ⟨.denied, [0, 0]⟩] := by decide

/-- R88's table: a slot that becomes FREE while the part is RESETTING is allocated, and no backfill job is created. -/
theorem test_no_job_while_resetting :
    (match exec (.pieceCompletion 31 .done []) (resetting (lastOfRetiringLive.updWindow 15 (fun x =>
        { x with definition := some backfillDef, inFlight := 2 }))) with
      | .next t => ((t.slots[(15 : Fin 16)]).map SlotUnit.filling, t.copier.jobs[(15 : Fin 16)])
      | _ => (none, some 0)) = (some (some 1), none) := by decide

/-- R162: the timebase wraps. -/
theorem test_timebase_wraps :
    (match exec .timebaseIncrement { slotted with timebase := 0xFFFFFFFF } with
      | .next t => t.timebase
      | _ => 1) = 0 := by decide

/-- R142: the write index wraps after the last entry. -/
theorem test_write_index_wraps :
    (match exec (.recordWriteCompletion 31 .done) (noticeInFlight .record false) with
      | .next t => t.notice.write
      | _ => 1) = 0 := by decide

end Sys2Proof.Tests
end

section
/-! SUPPORT. The BAD_REQUEST test (R7), the first test on a head request: what it says of the byte range, and that it
alone decides what happens to a request that fails it. -/

namespace Sys2Proof.Machine

theorem crossesPage_iff (r : Request) :
    crossesPage r = true ↔ r.addr.toNat / 4096 ≠ (r.addr.toNat + 8 * r.beats - 1) / 4096 :=
  decide_eq_true_iff

/-- R7: the end of the address space is the end of an aligned 4 KiB region, so a byte beyond it lies in another region
than every 40-bit address. -/
theorem crossesPage_of_beyond_addresses {r : Request} (h : 2 ^ 40 ≤ r.addr.toNat + 8 * r.beats - 1) :
    crossesPage r = true := by
  rw [crossesPage_iff]
  have first_region : r.addr.toNat / 4096 < 2 ^ 28 := Nat.div_lt_of_lt_mul r.addr.isLt
  have last_region : 2 ^ 28 ≤ (r.addr.toNat + 8 * r.beats - 1) / 4096 := (Nat.le_div_iff_mul_le (by decide)).mpr h
  exact (first_region.trans_le last_region).ne

theorem mayClassify_of_mayTake {m : Fin 16} {r : Request} {s : State} (h : s.mayTake m r) : mayClassify s m = true := by
  obtain ⟨-, no_current, room⟩ := h
  simpa [mayClassify, no_current, Config.responseDepth] using room

/-- R7: the BAD_REQUEST test comes before every test that reads the part state, a window or a watched word. -/
theorem classification_of_crossesPage {m : Fin 16} {r : Request} {s : State} (h : s.mayTake m r)
    (hc : crossesPage r = true) :
    exec (.classification m) s = .next (refuseHead m r none .badRequest (popIntake m s)) := by
  obtain ⟨rest, head⟩ := h.1
  simp [exec, execClassification, classify, head, mayClassify_of_mayTake h, hc]

end Sys2Proof.Machine

namespace Sys2Proof

open Machine

/-- Settles O7: the first clause is the BAD_REQUEST test put first, the second the end of the address space. -/
theorem pageCrossingDenied : Obligations.PageCrossingDenied := by
  refine ⟨fun m r s may_take crosses => ?_, fun r beyond => ?_⟩
  · rw [classification_of_crossesPage may_take ((crossesPage_iff r).mpr crosses), refuseHead_popIntake]
  · exact (crossesPage_iff r).mp (crossesPage_of_beyond_addresses beyond)

end Sys2Proof
end

section
/-! SUPPORT. What each command can do to the notice unit, said once (`exec_noticeEffect`): most commands leave the ring
alone (`Quiet`), the others make one change that bears their name (`RingChange`), and a soft reset in progress may be
cleared after it (`Settles`). -/

namespace Sys2Proof.Machine

/-! ### The ring left alone -/

/-- From `n` to `n'` the ring is the same: its state, its indices, INDEX_ERROR, ATTN and the notice write in flight. The
queue of notices, the lost count, the mask, the holdoff timer and the requests for a write-back may differ. -/
structure NoticeUnit.SameRing (n n' : NoticeUnit) : Prop where
  ring        : n'.ring = n.ring
  write       : n'.write = n.write
  consumed    : n'.consumed = n.consumed
  writtenBack : n'.writtenBack = n.writtenBack
  indexError  : n'.indexError = n.indexError
  inFlight    : n'.inFlight = n.inFlight
  attn        : n'.attn = n.attn

namespace NoticeUnit.SameRing

theorem refl (n : NoticeUnit) : n.SameRing n := ⟨rfl, rfl, rfl, rfl, rfl, rfl, rfl⟩

theorem trans {a b c : NoticeUnit} (h : a.SameRing b) (k : b.SameRing c) : a.SameRing c where
  ring := k.ring.trans h.ring
  write := k.write.trans h.write
  consumed := k.consumed.trans h.consumed
  writtenBack := k.writtenBack.trans h.writtenBack
  indexError := k.indexError.trans h.indexError
  inFlight := k.inFlight.trans h.inFlight
  attn := k.attn.trans h.attn

theorem take (n : NoticeUnit) (b : NoticeBody) (now : Micros) : n.SameRing (n.take b now) := by
  rcases n.take_cases b now with h | h | h <;> rw [h] <;> exact ⟨rfl, rfl, rfl, rfl, rfl, rfl, rfl⟩

theorem of_posts {now : Micros} {n n' : NoticeUnit} (h : Posts now n n') : n.SameRing n' := by
  obtain ⟨bodies, rfl⟩ := h
  induction bodies generalizing n with
  | nil => exact refl n
  | cons b bodies ih => exact (take n b now).trans (ih)

theorem attention_eq {n n' : NoticeUnit} (h : n.SameRing n') : n'.attention = n.attention := by
  simp only [NoticeUnit.attention, h.ring, h.writtenBack, h.consumed]

theorem driveAttn {n n' : NoticeUnit} (h : n.SameRing n') : n.driveAttn.SameRing n'.driveAttn :=
  ⟨h.ring, h.write, h.consumed, h.writtenBack, h.indexError, h.inFlight, h.attention_eq⟩

/-- A consumed-index store does the same to the ring whatever has been posted before it (R145). -/
theorem takeIndex {n n' : NoticeUnit} (h : n.SameRing n') (d : RingDef) (b : Beat) :
    (n.takeIndex d b).SameRing (n'.takeIndex d b) := by
  have accepts : n'.acceptsIndex d b.data.toNat = n.acceptsIndex d b.data.toNat := by
    simp only [NoticeUnit.acceptsIndex, h.write, h.consumed]
  have ignored : ({ n with indexError := true } : NoticeUnit).SameRing { n' with indexError := true } :=
    ⟨h.ring, h.write, h.consumed, h.writtenBack, rfl, h.inFlight, h.attn⟩
  unfold NoticeUnit.takeIndex
  rw [accepts]
  split
  · exact ignored
  split
  · exact driveAttn ⟨h.ring, h.write, rfl, h.writtenBack, h.indexError, h.inFlight, h.attn⟩
  · exact ignored

theorem clearing {n n' : NoticeUnit} (h : n.SameRing n') : n.clearing.SameRing n'.clearing := by
  unfold NoticeUnit.clearing
  rw [h.ring]
  exact driveAttn ⟨rfl, rfl, rfl, rfl, rfl, h.inFlight, h.attn⟩

end NoticeUnit.SameRing

/-- Every notice write that has a place at `t` had it at `s`. -/
def NoNewNoticeWrite (s t : State) : Prop :=
  ∀ (i : Fin 32) q, t.places[i] = some q → q.owner = .noticeWrite → s.places[i] = some q

theorem NoNewNoticeWrite.of_places {s t : State} (h : t.places = s.places) : NoNewNoticeWrite s t :=
  fun _ _ q _ => h ▸ q

theorem NoNewNoticeWrite.trans {s t u : State} (a : NoNewNoticeWrite s t) (b : NoNewNoticeWrite t u) :
    NoNewNoticeWrite s u := fun i q h o => a i q (b i q h o) o

/-- From `s` to `t` the ring and the part state are the same, and no notice write was issued. -/
structure Quiet (s t : State) : Prop where
  notice : s.notice.SameRing t.notice
  part   : t.link.part = s.link.part
  writes : NoNewNoticeWrite s t

namespace Quiet

theorem of_same {s t : State} (notice : t.notice = s.notice) (part : t.link.part = s.link.part)
    (places : t.places = s.places) : Quiet s t :=
  ⟨notice ▸ .refl _, part, .of_places places⟩

theorem refl (s : State) : Quiet s s := of_same rfl rfl rfl

theorem trans {s t u : State} (a : Quiet s t) (b : Quiet t u) : Quiet s u :=
  ⟨a.notice.trans b.notice, b.part.trans a.part, a.writes.trans b.writes⟩

theorem of_works {s t : State} (h : Works s t) : Quiet s t :=
  ⟨.of_posts h.notice, congrArg Link.part h.link, .of_places h.places⟩

theorem post (b : NoticeBody) (s : State) : Quiet s (Machine.post b s) := of_works (.post s b)

end Quiet

theorem quiet_releasePlace (i : Fin 32) (s : State) : Quiet s (releasePlace i s) := by
  refine ⟨.refl _, rfl, fun j q h _ => ?_⟩
  rw [releasePlace, upd_get] at h
  split at h
  · cases h
  · exact h

/-- A place given to a piece or to a copier burst is no notice write. -/
theorem quiet_takePlace {q : MemRequest} (hq : q.owner ≠ .noticeWrite) (i : Fin 32) (s : State) :
    Quiet s (takePlace i q s) := by
  refine ⟨.refl _, rfl, fun j x h o => ?_⟩
  rw [takePlace, upd_get] at h
  split at h
  · cases h; exact absurd o hq
  · exact h

/-! ### The request path -/

theorem quiet_arriveRequest (m : Fin 16) (r : Request) (s : State) : Quiet s (arriveRequest m r s) := by
  unfold arriveRequest
  split <;> exact .of_same rfl rfl rfl

theorem quiet_sendResponse (m : Fin 16) (s : State) : Quiet s (sendResponse m s) := by
  unfold sendResponse
  split
  · exact .refl s
  · split
    · exact .of_same rfl rfl rfl
    · exact .refl s

theorem quiet_popIntake (m : Fin 16) (s : State) : Quiet s (popIntake m s) := by
  rw [popIntake_eq]
  exact .of_same rfl rfl rfl

theorem quiet_refuseHead (m : Fin 16) (r : Request) (w : Option (Fin 16)) (reason : Reason) (s : State) :
    Quiet s (refuseHead m r w reason s) :=
  Quiet.trans (t := enter m r w (.complete (deniedResponse r)) [] s) (.of_same rfl rfl rfl) (.post _ _)

theorem quiet_enterWaiting (m : Fin 16) (r : Request) (w : Fin 16) (wait : Wait) (pieces : List Piece) (s : State) :
    Quiet s (enterWaiting m r w wait pieces s) := .of_same rfl rfl rfl

theorem quiet_enterPassthrough (m : Fin 16) (r : Request) (s : State) : Quiet s (enterPassthrough m r s) :=
  .of_same rfl rfl rfl

theorem quiet_consumerRead (w : Fin 16) (c : Fin 8) (first last : Nat) (s : State) :
    Quiet s (consumerRead w c first last s) := .of_works (works_consumerRead _ _ _ _ _)

theorem quiet_captureSlots (w : Fin 16) (pieces : List Piece) (s : State) : Quiet s (captureSlots w pieces s) :=
  .of_works (works_captureSlots _ _ _)

theorem quiet_captureReads (w : Fin 16) (pieces : List Piece) (s : State) : Quiet s (captureReads w pieces s) :=
  .of_works (works_captureReads _ _ _)

theorem quiet_mapSlottedRead (m w : Fin 16) (d : Definition) (u : SlotUnit) (r : Request) (s : State) :
    Quiet s (mapSlottedRead m w d u r s) := by
  unfold mapSlottedRead
  split
  · exact (quiet_enterWaiting ..).trans (quiet_captureSlots ..)
  · exact (quiet_consumerRead ..).trans ((quiet_enterWaiting ..).trans (quiet_captureSlots ..))
  · exact (quiet_enterWaiting ..).trans (quiet_captureSlots ..)

theorem quiet_mapRollingRead (m w : Fin 16) (d : Definition) (u : RollState) (r : Request) (s : State) :
    Quiet s (mapRollingRead m w d u r s) := by
  unfold mapRollingRead
  split
  · exact quiet_enterWaiting ..
  · exact (quiet_consumerRead ..).trans ((quiet_enterWaiting ..).trans (quiet_captureReads ..))
  · exact (quiet_enterWaiting ..).trans (quiet_captureReads ..)

theorem quiet_mapWindowRequest (m w : Fin 16) (r : Request) (s : State) : Quiet s (mapWindowRequest m w r s) := by
  unfold mapWindowRequest
  split
  · exact .refl s
  split
  · split
    · exact (quiet_enterWaiting ..).trans (.of_works (works_placeWrite _ _ _))
    · exact quiet_refuseHead ..
  · split
    · exact quiet_mapSlottedRead ..
    · exact quiet_mapRollingRead ..
    · exact .refl s

theorem quiet_windowRequest (m w : Fin 16) (r : Request) (s : State) : Quiet s (windowRequest m w r s) := by
  unfold windowRequest
  split
  · exact quiet_refuseHead ..
  · exact quiet_mapWindowRequest ..

/-! ### Issue and completion -/

theorem quiet_countIssue (w : Fin 16) (r : Request) (p : Piece) (s : State) : Quiet s (countIssue w r p s) := by
  unfold countIssue
  extract_lets t
  have counted : Quiet s t := .of_same rfl rfl rfl
  split
  · split
    · exact counted.trans (.of_works ((works_issueToSlot _ _ _).trans (works_markWritten _ _ _ _)))
    · exact counted.trans (.of_works (works_issueToSlot _ _ _))
  · exact counted

theorem quiet_issueBurst (place : Fin 32) (offer : Offer) (s : State) : Quiet s (issueBurst place offer s) := by
  unfold issueBurst
  split
  · exact .refl s
  split
  · exact .refl s
  extract_lets t
  have placed : Quiet s t := by
    unfold t
    cases offer <;> exact (quiet_takePlace (by simp) place s).trans (.of_works (works_updCopier _ _))
  exact placed.trans (.of_works (works_updSlot _ _ _ _))

theorem quiet_countCompletion (w : Fin 16) (p : Piece) (s : State) : Quiet s (countCompletion w p s) := by
  unfold countCompletion
  extract_lets t
  have counted : Quiet s t := .of_same rfl rfl rfl
  split
  · exact counted.trans (.of_works (works_lowerSlotInFlight _ _ _))
  · exact counted.trans (.of_works (works_lowerRead _ _ _))
  · exact counted

theorem quiet_finishRequest (m : Fin 16) (e : Entry) (s : State) : Quiet s (finishRequest m e s) := by
  unfold finishRequest
  split
  · exact .of_same rfl rfl rfl
  · next w _ =>
    have closed : Works s (closingCommit m e w s) := works_closingCommit _ _ _ _
    split
    · exact .of_works (closed.trans (works_lowerDrain _ _))
    · exact .of_works closed

theorem quiet_pieceCompleted (m : Fin 16) (e : Entry) (k : Nat) (p : Piece) (status : MemStatus) (s : State) :
    Quiet s (pieceCompleted m e k p status s) := by
  unfold pieceCompleted
  extract_lets e' marked counted finished
  have hmarked : Quiet s marked := .of_same rfl rfl rfl
  have hcounted : Quiet marked counted := by
    unfold counted
    split
    · exact .refl _
    · split
      · exact (quiet_countCompletion ..).trans (.post _ _)
      · exact quiet_countCompletion ..
  have hfinished : Quiet counted finished := by
    unfold finished
    split
    · exact quiet_finishRequest ..
    · exact .refl _
  refine (hmarked.trans hcounted).trans (hfinished.trans ?_)
  split
  · exact .refl _
  · split
    · exact .of_works (works_faultReport _ _ _)
    · exact .refl _

/-! ### Timers and frame lines -/

theorem quiet_expireHoldoff (s : State) : Quiet s (expireHoldoff s) := by
  unfold expireHoldoff
  split
  · split
    · exact ⟨⟨rfl, rfl, rfl, rfl, rfl, rfl, rfl⟩, rfl, .of_places rfl⟩
    · exact .refl s
  · exact .refl s

theorem works_frameLine (c : Fin 8) (s : State) : Works s (frameLine c s) := by
  unfold frameLine
  split
  · exact .refl s
  split
  · refine Works.forWindows _ (fun w t => ?_) s
    split
    · exact works_frameStart _ _ _
    · exact .refl t
  · exact .refl s

theorem works_expireSlotWait (m : Fin 16) (s : State) : Works s (expireSlotWait m s) := by
  unfold expireSlotWait
  split
  · exact .refl s
  split
  · exact .refl s
  split
  · exact .refl s
  split
  · exact .refl s
  split
  · exact .refl s
  split
  · exact works_answerWaiting _ _ _
  · exact (works_stopTimer _ _).trans (works_reclaimSlot _ _)

theorem works_expireVisibilityWait (m : Fin 16) (s : State) : Works s (expireVisibilityWait m s) := by
  unfold expireVisibilityWait
  split
  · exact .refl s
  split
  · exact .refl s
  split
  · exact .refl s
  split
  · exact .refl s
  split
  · exact .refl s
  split
  · exact works_answerWaiting _ _ _
  · exact (works_stopTimer _ _).trans (works_reclaimTarget _ _)

theorem works_expireIdle (w : Fin 16) (c : Fin 8) (s : State) : Works s (expireIdle w c s) := by
  unfold expireIdle
  split
  · exact works_idleRelease _ _ _
  · exact .refl s

/-! ### The link's commands -/

/-- The three ends of a take: no frame to take, a refusal, which changes the result record alone, or the owner's answer
with the record ACCEPTED (R153 to R155). -/
theorem takeWrite_cases (code : Byte) (ok : Bool) (owner : State → Answer) (s : State) :
    takeWrite code ok owner s = s ∨
    (∃ result index, frameAnswer ok owner s = .error (result, index) ∧
      takeWrite code ok owner s = recordResult code result index s) ∨
    ∃ t, owner s = .ok t ∧ takeWrite code ok owner s = recordResult code .accepted 0 t := by
  unfold takeWrite
  split
  · exact .inl rfl
  split
  · next result index h => exact .inr (.inl ⟨result, index, h, rfl⟩)
  · next t h =>
    refine .inr (.inr ⟨t, ?_, rfl⟩)
    unfold frameAnswer at h
    split at h
    · cases h
    · split at h
      · cases h
      · exact h

theorem quiet_recordResult (code : Byte) (result : Result) (index : Nat) (s : State) :
    Quiet s (recordResult code result index s) := .of_same rfl rfl rfl

theorem quiet_takeWrite (code : Byte) (ok : Bool) {owner : State → Answer} {s : State}
    (h : ∀ t, owner s = .ok t → Quiet s t) : Quiet s (takeWrite code ok owner s) := by
  rcases takeWrite_cases code ok owner s with e | ⟨_, _, -, e⟩ | ⟨t, ht, e⟩ <;> rw [e]
  · exact .refl s
  · exact quiet_recordResult ..
  · exact (h t ht).trans (quiet_recordResult ..)

theorem quiet_takeRead (code : Byte) (selectors : Nat) (params : List Byte) (capture : State → List Byte) (s : State) :
    Quiet s (takeRead code selectors params capture s) := by
  unfold takeRead
  split
  · exact .refl s
  · split <;> exact .of_same rfl rfl rfl

/-- The owner of a window command that answers a state answers it for one of the windows. -/
theorem withWindow_ok {frame : List Byte} {f : Fin 16 → Answer} {t : State} (h : withWindow frame f = .ok t) :
    ∃ w, f w = .ok t := by
  unfold withWindow at h
  split at h
  · cases h
  · exact ⟨_, h⟩

theorem quiet_ownerDefineWindow {frame : List Byte} {s t : State} (h : ownerDefineWindow frame s = .ok t) :
    Quiet s t := by
  obtain ⟨w, h⟩ := withWindow_ok h
  split at h
  · cases h
  split at h
  · cases h
  split at h
  · cases h
  · obtain rfl := Except.ok.inj h; exact .of_same rfl rfl rfl

theorem quiet_ownerSetCommitWord {frame : List Byte} {s t : State} (h : ownerSetCommitWord frame s = .ok t) :
    Quiet s t := by
  obtain ⟨w, h⟩ := withWindow_ok h
  split at h
  · split at h
    · obtain rfl := Except.ok.inj h; exact .of_same rfl rfl rfl
    split at h
    · cases h
    · obtain rfl := Except.ok.inj h; exact .of_same rfl rfl rfl
  · cases h

theorem quiet_ownerUndefineWindow {frame : List Byte} {s t : State} (h : ownerUndefineWindow frame s = .ok t) :
    Quiet s t := by
  obtain ⟨w, h⟩ := withWindow_ok h
  split at h
  · obtain rfl := Except.ok.inj h; exact .of_same rfl rfl rfl
  · cases h

theorem quiet_enableWindow (w : Fin 16) (d : Definition) (front : Fin 4) (s : State) :
    Quiet s (enableWindow w d front s) := by
  unfold enableWindow
  extract_lets live commits t
  split
  · refine Quiet.trans ?_ (.of_works (works_allocate _ _))
    exact .of_same rfl rfl rfl
  · exact .of_same rfl rfl rfl

theorem quiet_ownerEnableWindow {frame : List Byte} {s t : State} (h : ownerEnableWindow frame s = .ok t) :
    Quiet s t := by
  obtain ⟨w, h⟩ := withWindow_ok h
  split at h
  · split at h
    · cases h
    · obtain rfl := Except.ok.inj h; exact quiet_enableWindow ..
  · cases h

theorem quiet_ownerDrainWindow {frame : List Byte} {s t : State} (h : ownerDrainWindow frame s = .ok t) :
    Quiet s t := by
  obtain ⟨w, h⟩ := withWindow_ok h
  split at h
  · obtain rfl := Except.ok.inj h; exact .of_works (works_drainWindow _ _)
  · cases h

theorem quiet_ownerResumeWindow {frame : List Byte} {s t : State} (h : ownerResumeWindow frame s = .ok t) :
    Quiet s t := by
  obtain ⟨w, h⟩ := withWindow_ok h
  split at h
  · obtain rfl := Except.ok.inj h
    exact Quiet.trans (t := s.updWindow w _) (.of_same rfl rfl rfl) (.of_works (works_allocate _ _))
  · cases h

theorem quiet_ownerSetStallLimit {frame : List Byte} {s t : State} (h : ownerSetStallLimit frame s = .ok t) :
    Quiet s t := by
  obtain ⟨w, h⟩ := withWindow_ok h
  extract_lets x at h
  split at h
  · split at h
    · cases h
    · obtain rfl := Except.ok.inj h; exact .of_same rfl rfl rfl
  · cases h

theorem quiet_ownerPublish {frame : List Byte} {s t : State} (h : ownerPublish frame s = .ok t) : Quiet s t := by
  obtain ⟨w, h⟩ := withWindow_ok h
  split at h
  · obtain rfl := Except.ok.inj h; exact .of_works (works_arrive _ _ _)
  · cases h

theorem quiet_ownerAbandon {frame : List Byte} {s t : State} (h : ownerAbandon frame s = .ok t) : Quiet s t := by
  obtain ⟨w, h⟩ := withWindow_ok h
  split at h
  · cases h
  split at h
  · obtain rfl := Except.ok.inj h; exact .of_works (works_arrive _ _ _)
  · cases h

theorem quiet_ownerBindConsumer {frame : List Byte} {s t : State} (h : ownerBindConsumer frame s = .ok t) :
    Quiet s t := by
  unfold ownerBindConsumer at h
  split at h
  · cases h
  split at h
  · cases h
  split at h
  · cases h
  split at h
  · cases h
  split at h
  · cases h
  · obtain rfl := Except.ok.inj h; exact .of_same rfl rfl rfl

theorem quiet_ownerUnbindConsumer {frame : List Byte} {s t : State} (h : ownerUnbindConsumer frame s = .ok t) :
    Quiet s t := by
  unfold ownerUnbindConsumer at h
  split at h
  · cases h
  split at h
  · cases h
  · obtain rfl := Except.ok.inj h; exact .of_same rfl rfl rfl

theorem quiet_ownerSetNoticeMask {frame : List Byte} {s t : State} (h : ownerSetNoticeMask frame s = .ok t) :
    Quiet s t := by
  obtain rfl := Except.ok.inj h
  exact ⟨⟨rfl, rfl, rfl, rfl, rfl, rfl, rfl⟩, rfl, .of_places rfl⟩

theorem quiet_ownerFlushNotices {s t : State} (h : ownerFlushNotices s = .ok t) : Quiet s t := by
  unfold ownerFlushNotices at h
  split at h
  · obtain rfl := Except.ok.inj h; exact ⟨⟨rfl, rfl, rfl, rfl, rfl, rfl, rfl⟩, rfl, .of_places rfl⟩
  · cases h

theorem quiet_unknownCommandFrame (code : Byte) (s : State) :
    Quiet s (if namesCommand code then s else takeWrite code false (fun s => .ok s) s) := by
  split
  · exact .refl s
  · exact quiet_takeWrite code false (fun t ht => by cases ht; exact .refl s)

/-! ### The changes of the ring -/

/-- The one change that a command makes of the notice unit and the part state, postings and the clearing of a soft reset
apart: none, or the change of the only command that makes it. -/
inductive RingChange (s : State) : Instr → NoticeUnit → PartState → Prop
  | unchanged (c : Instr) : RingChange s c s.notice s.link.part
  /-- A store reaches the consumed-index word (R145). -/
  | stored (m : Fin 16) (d : RingDef) (b : Beat) :
      RingChange s (.classification m) (s.notice.takeIndex d b) s.link.part
  /-- An ACTIVE ring issues a notice write (R142, R144). -/
  | issued (f : NoticeInFlight) (active : s.notice.ring = .active) :
      RingChange s .issueGrant { s.notice with inFlight := some f } s.link.part
  /-- The notice write in flight completes (R142, R144, R148). -/
  | completed (c : Instr) (f : NoticeInFlight) (status : MemStatus) (flying : s.notice.inFlight = some f) :
      RingChange s c (s.notice.complete f status s.timebase) s.link.part
  /-- SET NOTICE RING is taken (R137). -/
  | ringSet (params : List Byte) (d : Option RingDef) :
      RingChange s (.setNoticeRing params) (s.notice.setRing d) s.link.part
  /-- READ RING STATUS has reported INDEX_ERROR (R146). -/
  | reported (params : List Byte) :
      RingChange s (.readRingStatus params) { s.notice with indexError := false } s.link.part
  /-- RESET_N has reset the part (R150). -/
  | hardReset (b : Bool) : RingChange s (.hardReset b) .reset .running
  /-- SOFT RESET is taken: the part is RESETTING (R163). -/
  | resetTaken (params : List Byte) : RingChange s (.softReset params) s.notice .resetting

/-- How a command that has made of the notice unit `n` and of the part state `p` ends in `t`: there, or, where the part
is RESETTING, in the clearing of the soft reset (R149, R164). -/
inductive Settles (n : NoticeUnit) (p : PartState) (t : State) : Prop
  | stays (notice : n.SameRing t.notice) (part : t.link.part = p)
  | clears (was : p = .resetting) (notice : n.clearing.SameRing t.notice) (part : t.link.part = .running)

/-- What the command `c` does to the notice unit from `s` to `t`, and that only an ACTIVE ring gets a notice write
issued. -/
structure NoticeEffect (c : Instr) (s t : State) : Prop where
  ring   : ∃ n p, RingChange s c n p ∧ Settles n p t
  writes : s.notice.ring ≠ .active → NoNewNoticeWrite s t

theorem Quiet.effect {s t : State} (h : Quiet s t) (c : Instr) : NoticeEffect c s t :=
  ⟨⟨_, _, .unchanged c, .stays h.notice h.part⟩, fun _ => h.writes⟩

/-- The clearing of a soft reset clears the notice unit, posts RESET_DONE and lets the part run (R165). -/
theorem settles_softClear {s : State} (h : s.link.part = .resetting) : Settles s.notice s.link.part (softClear s) := by
  unfold softClear
  extract_lets windows pointer unit posted
  have windows_cleared : s.notice.SameRing windows.notice :=
    .of_posts (Works.forWindows _ works_clearWindow s).notice
  clear_value windows
  exact .clears h (windows_cleared.clearing.trans (.take unit.notice .resetDone unit.timebase)) rfl

theorem settles_testReset (s : State) : Settles s.notice s.link.part (testReset s) := by
  unfold testReset
  split
  · next h => exact settles_softClear h.1
  · exact .stays (.refl _) rfl

end Sys2Proof.Machine
end

section
/-! SUPPORT. The commands that can change the ring (CLASSIFICATION, ISSUE_GRANT, the completions, SET NOTICE RING, SOFT
RESET), and the effect of every command on the notice unit (`exec_noticeEffect`). -/

namespace Sys2Proof.Machine

theorem Settles.of_sameRing {n n' : NoticeUnit} {p : PartState} {t : State} (h : n.SameRing n') (k : Settles n' p t) :
    Settles n p t := by
  cases k with
  | stays notice part => exact .stays (h.trans notice) part
  | clears was notice part => exact .clears was (h.clearing.trans notice) part

theorem softClear_places (s : State) : (softClear s).places = s.places := by
  unfold softClear
  extract_lets windows pointer unit posted
  have windows_cleared : windows.places = s.places := (Works.forWindows _ works_clearWindow s).places
  clear_value windows
  exact windows_cleared

theorem testReset_places (s : State) : (testReset s).places = s.places := by
  unfold testReset
  split
  · exact softClear_places s
  · rfl

/-- A quiet change after which a soft reset in progress is tested (R164). -/
theorem Quiet.effect_testReset {s t : State} (h : Quiet s t) (c : Instr) : NoticeEffect c s (testReset t) where
  ring := ⟨_, _, .unchanged c, .of_sameRing h.notice (h.part ▸ settles_testReset t)⟩
  writes _ := h.writes.trans (.of_places (testReset_places t))

/-! ### Classification -/

/-- A watched write tells the commit units, which only post, and then the notice unit, which may take an index (R9). -/
theorem effect_watchedWrite {s t : State} (h : Quiet s t) (m : Fin 16) (r : Request) :
    NoticeEffect (.classification m) s (watchedWrite m r t) := by
  unfold watchedWrite reportWatched
  have entered : Quiet t (enterPassthrough m r t) := quiet_enterPassthrough m r t
  have told : Quiet s (forWindows (fun w u => reportCommitWord w m t.nextId r u) (enterPassthrough m r t)) :=
    (h.trans entered).trans (.of_works (.forWindows _ (fun _ _ => works_reportCommitWord _ _ _ _ _) _))
  generalize forWindows _ _ = u at told
  unfold reportConsumedIndex
  split
  · exact told.effect _
  split
  · exact told.effect _
  split
  · exact told.effect _
  split
  · exact told.effect _
  · next d _ _ _ b _ =>
    exact ⟨⟨_, _, .stored m d b, .stays (told.notice.takeIndex d b) told.part⟩, fun _ => told.writes⟩

theorem effect_classify (m : Fin 16) (s : State) : NoticeEffect (.classification m) s (classify m s) := by
  unfold classify
  split
  · exact (Quiet.refl s).effect _
  next r _ _ =>
  have popped : Quiet s (popIntake m s) := quiet_popIntake m s
  split
  · exact (Quiet.refl s).effect _
  split
  · exact (popped.trans (quiet_refuseHead ..)).effect _
  split
  · exact (Quiet.refl s).effect _
  unfold classifyHead
  split
  · exact (popped.trans (quiet_refuseHead ..)).effect _
  · split
    · exact effect_watchedWrite popped m r
    · exact (popped.trans (quiet_windowRequest ..)).effect _
  · split
    · exact effect_watchedWrite popped m r
    · exact (popped.trans (quiet_enterPassthrough ..)).effect _

/-! ### Issue -/

theorem effect_issuePiece (place : Fin 32) (m : Fin 16) (e : Entry) (k : Nat) (p : Piece) {s t : State}
    (h : Quiet s t) (c : Instr) : NoticeEffect c s (issuePiece place m e k p t) := by
  unfold issuePiece
  extract_lets placed issued
  have hplaced : Quiet t placed := quiet_takePlace (by simp) place t
  have hissued : Quiet s issued := (h.trans hplaced).trans (.of_same rfl rfl rfl)
  split
  · exact hissued.effect c
  next w _ =>
  extract_lets counted
  have hcounted : Quiet s counted := hissued.trans (quiet_countIssue ..)
  split
  · exact (hcounted.trans (.of_works (works_lowerWaiting _ _))).effect_testReset c
  · exact hcounted.effect c

/-- A notice write is offered by an ACTIVE ring alone (R141, R143). -/
theorem active_of_noticeOffer {s : State} {x : RingDef × NoticeWrite} (h : noticeOffer s = some x) :
    s.notice.ring = .active := by
  unfold noticeOffer at h
  split at h
  · cases h
  split at h
  · cases h
  · next active => exact not_not.mp active

theorem effect_issueNotice (place : Fin 32) (d : RingDef) (write : NoticeWrite) {s t : State}
    (h : s.notice = t.notice) (part : t.link.part = s.link.part) (places : t.places = s.places)
    (active : s.notice.ring = .active) : NoticeEffect .issueGrant s (issueNotice place d write t) := by
  unfold issueNotice
  split
  · next v =>
    refine ⟨⟨_, _, .issued ⟨.writeBack v, false⟩ active, .stays ?_ part⟩, fun inactive => absurd active inactive⟩
    rw [h]
    exact ⟨rfl, rfl, rfl, rfl, rfl, rfl, rfl⟩
  · split
    · exact (Quiet.of_same h.symm part places).effect _
    · refine ⟨⟨_, _, .issued ⟨.record, false⟩ active, .stays ?_ part⟩, fun inactive => absurd active inactive⟩
      rw [h]
      exact ⟨rfl, rfl, rfl, rfl, rfl, rfl, rfl⟩

theorem effect_grant (s : State) : NoticeEffect .issueGrant s (grant s) := by
  unfold grant
  split
  · next place c _ _ =>
    have granted : Quiet s { s with lastGranted := c } := .of_same rfl rfl rfl
    unfold issueFor
    split
    · split
      · exact granted.effect _
      · split
        · exact granted.effect _
        · exact effect_issuePiece _ _ _ _ _ granted _
    · split
      · exact granted.effect _
      · next offer => exact effect_issueNotice _ _ _ rfl rfl rfl (active_of_noticeOffer offer)
    · split
      · exact granted.effect _
      · exact (granted.trans (quiet_issueBurst ..)).effect _
  · exact (Quiet.refl s).effect _

/-! ### Completions -/

theorem effect_completePiece (tag : Fin 32) (status : MemStatus) (data : List Dword) (s : State) (c : Instr) :
    NoticeEffect c s (completePiece tag status data s) := by
  unfold completePiece
  split
  · have released : Quiet s (releasePlace tag s) := quiet_releasePlace tag s
    extract_lets t
    split
    · exact released.effect c
    split
    · exact released.effect c
    · exact (released.trans (quiet_pieceCompleted ..)).effect_testReset c
  · exact (Quiet.refl s).effect c

theorem effect_completeBurst (tag : Fin 32) (status : MemStatus) (data : List Dword) (s : State) (c : Instr) :
    NoticeEffect c s (completeBurst tag status data s) := by
  unfold completeBurst
  split
  · have released : Quiet s (releasePlace tag s) := quiet_releasePlace tag s
    extract_lets t
    split
    · exact (released.trans (.of_works (works_burstCompleted _ _ _ _ _ _))).effect_testReset c
    · exact released.effect c
  · exact (Quiet.refl s).effect c

theorem effect_completeNotice (tag : Fin 32) (status : MemStatus) {f : NoticeInFlight} {s : State}
    (flying : s.notice.inFlight = some f) (c : Instr) : NoticeEffect c s (completeNotice tag f status s) := by
  unfold completeNotice
  refine ⟨⟨_, _, .completed c f status flying, ?_⟩, fun _ => ?_⟩
  · exact settles_testReset ((releasePlace tag s).updNotice (fun n => n.complete f status s.timebase))
  · exact (quiet_releasePlace tag s).writes.trans (.of_places (testReset_places _))

theorem effect_completeRecord (tag : Fin 32) (status : MemStatus) (s : State) (c : Instr) :
    NoticeEffect c s (completeRecord tag status s) := by
  unfold completeRecord
  split
  · next flying =>
    split
    · exact effect_completeNotice tag status flying c
    · exact (Quiet.refl s).effect c
  · exact (Quiet.refl s).effect c

theorem effect_completeWriteBack (tag : Fin 32) (status : MemStatus) (s : State) (c : Instr) :
    NoticeEffect c s (completeWriteBack tag status s) := by
  unfold completeWriteBack
  split
  · next flying =>
    split
    · exact (Quiet.refl s).effect c
    · exact effect_completeNotice tag status flying c
  · exact (Quiet.refl s).effect c

/-! ### SET NOTICE RING, READ RING STATUS and SOFT RESET -/

/-- SET NOTICE RING is refused for a parameter, or gives the notice unit a definition or none (R137). -/
theorem ownerSetNoticeRing_cases (frame : List Byte) (s : State) :
    (∃ i, ownerSetNoticeRing frame s = .error (.refusedParam, i)) ∨
    ∃ d, ownerSetNoticeRing frame s = .ok (s.updNotice (fun n => n.setRing d)) := by
  unfold ownerSetNoticeRing
  split
  · exact .inr ⟨_, rfl⟩
  split
  · exact .inl ⟨_, rfl⟩
  split
  · exact .inl ⟨_, rfl⟩
  · exact .inr ⟨_, rfl⟩

theorem effect_setNoticeRing (params : List Byte) (ok : Bool) (code : Byte) (frame : List Byte) (s : State) :
    NoticeEffect (.setNoticeRing params) s (takeWrite code ok (ownerSetNoticeRing frame) s) := by
  rcases takeWrite_cases code ok (ownerSetNoticeRing frame) s with e | ⟨_, _, -, e⟩ | ⟨t, ht, e⟩ <;> rw [e]
  · exact (Quiet.refl s).effect _
  · exact (quiet_recordResult ..).effect _
  · rcases ownerSetNoticeRing_cases frame s with ⟨i, refused⟩ | ⟨d, taken⟩
    · cases refused.symm.trans ht
    · obtain rfl := Except.ok.inj (taken.symm.trans ht)
      exact ⟨⟨_, _, .ringSet params d, .stays (.refl _) rfl⟩, fun _ => .of_places rfl⟩

theorem effect_readRingStatus (params : List Byte) {s t : State} (h : exec (.readRingStatus params) s = .next t) :
    NoticeEffect (.readRingStatus params) s t := by
  obtain rfl := Host.Outcome.next.inj h
  split
  · exact (Quiet.refl s).effect _
  · have read := quiet_takeRead codeReadRingStatus 0 params (fun s => ringRecord s.notice) s
    obtain ⟨ring, write, consumed, writtenBack, -, inFlight, attn⟩ := read.notice
    exact ⟨⟨_, _, .reported params, .stays ⟨ring, write, consumed, writtenBack, rfl, inFlight, attn⟩ read.part⟩,
      fun _ => read.writes⟩

theorem works_resetWaits (slotted : Bool) (w : Fin 16) (s : State) : Works s (resetWaits slotted w s) := by
  unfold resetWaits
  split
  · exact works_answerAll _ _ _
  · exact .refl s

/-- The steps of a soft reset leave the ring alone, the part being RESETTING; then the conditions are tested (R163). -/
theorem takeSoftReset_eq (s : State) :
    ∃ t, s.notice.SameRing t.notice ∧ t.link.part = .resetting ∧ NoNewNoticeWrite s t ∧
      takeSoftReset s = testReset t := by
  unfold takeSoftReset
  extract_lets resetting discarded unfenced slotted rolling dropped stopped
  have to_discarded : Works resetting discarded := .forWindows _ (fun w t => works_discardAll w .reset t) _
  have to_unfenced : Works discarded unfenced := works_answerAll _ _ _
  have to_slotted : Works unfenced slotted := .forWindows _ (works_resetWaits true) _
  have to_rolling : Works slotted rolling := .forWindows _ (works_resetWaits false) _
  have to_dropped : Works rolling dropped := .forWindows _ works_dropJobs _
  have worked : Quiet resetting dropped :=
    .of_works (to_discarded.trans (to_unfenced.trans (to_slotted.trans (to_rolling.trans to_dropped))))
  have same_ring : s.notice.SameRing resetting.notice := .refl _
  have is_resetting : resetting.link.part = .resetting := rfl
  have none_new : NoNewNoticeWrite s resetting := .of_places rfl
  clear_value resetting dropped
  have timers_stopped : Quiet dropped (stopIdleTimers stopped) :=
    ⟨⟨rfl, rfl, rfl, rfl, rfl, rfl, rfl⟩, rfl, .of_places rfl⟩
  obtain ⟨notice, part, writes⟩ := worked.trans timers_stopped
  exact ⟨_, same_ring.trans notice, part.trans is_resetting, none_new.trans writes, rfl⟩

/-- The result record is no part of what a command settles. -/
theorem Settles.recordResult {n : NoticeUnit} {p : PartState} {t : State} (h : Settles n p t) (code : Byte)
    (result : Result) (index : Nat) : Settles n p (recordResult code result index t) := by
  cases h with
  | stays notice part => exact .stays notice part
  | clears was notice part => exact .clears was notice part

theorem effect_softReset (params : List Byte) (code : Byte) (ok : Bool) (s : State) :
    NoticeEffect (.softReset params) s (takeWrite code ok (fun s => .ok (takeSoftReset s)) s) := by
  rcases takeWrite_cases code ok (fun s => .ok (takeSoftReset s)) s with e | ⟨_, _, -, e⟩ | ⟨t, ht, e⟩ <;> rw [e]
  · exact (Quiet.refl s).effect _
  · exact (quiet_recordResult ..).effect _
  · obtain rfl := Except.ok.inj ht
    obtain ⟨u, notice, part, writes, tested⟩ := takeSoftReset_eq s
    have settled : Settles s.notice .resetting (takeSoftReset s) :=
      tested ▸ .of_sameRing notice (part ▸ settles_testReset u)
    have none_new : NoNewNoticeWrite s (takeSoftReset s) :=
      writes.trans (tested ▸ .of_places (testReset_places u))
    exact ⟨⟨_, _, .resetTaken params, settled.recordResult ..⟩, fun _ => none_new.trans (quiet_recordResult ..).writes⟩

theorem effect_hardReset (b : Bool) (s : State) : NoticeEffect (.hardReset b) s (hardReset b s) where
  ring := ⟨_, _, .hardReset b, .stays (.refl _) rfl⟩
  writes _ i q hq _ := by simp [hardReset, State.reset] at hq

/-! ### Every command -/

/-- The effect of every command on the notice unit. -/
theorem exec_noticeEffect {c : Instr} {s t : State} (h : exec c s = .next t) : NoticeEffect c s t := by
  cases c with
  | requestArrival m r => cases h; exact (quiet_arriveRequest m r s).effect _
  | classification m => cases h; exact effect_classify m s
  | issueGrant => cases h; exact effect_grant s
  | pieceCompletion tag status data => cases h; exact effect_completePiece tag status data s _
  | copierBurstCompletion tag status data => cases h; exact effect_completeBurst tag status data s _
  | recordWriteCompletion tag status => cases h; exact effect_completeRecord tag status s _
  | writeBackCompletion tag status => cases h; exact effect_completeWriteBack tag status s _
  | responseSent m => cases h; exact (quiet_sendResponse m s).effect _
  | hardReset b => cases h; exact effect_hardReset b s
  | frameLineEvent line => cases h; exact (Quiet.of_works (works_frameLine line s)).effect _
  | slotWaitTimerExpiry m => cases h; exact (Quiet.of_works (works_expireSlotWait m s)).effect _
  | visibilityWaitTimerExpiry m => cases h; exact (Quiet.of_works (works_expireVisibilityWait m s)).effect _
  | idleExpiry w c => cases h; exact (Quiet.of_works (works_expireIdle w c s)).effect _
  | holdoffExpiry => cases h; exact (quiet_expireHoldoff s).effect _
  | commitTake w => cases h; exact (Quiet.of_works (works_takeCommit w s)).effect _
  | drainCompletion w => cases h; exact (Quiet.of_works (works_testDrain w s)).effect _
  | softResetClearing => cases h; exact (Quiet.refl s).effect_testReset _
  | defineWindow params => cases h; exact (quiet_takeWrite _ _ (fun _ => quiet_ownerDefineWindow)).effect _
  | setCommitWord params => cases h; exact (quiet_takeWrite _ _ (fun _ => quiet_ownerSetCommitWord)).effect _
  | undefineWindow params => cases h; exact (quiet_takeWrite _ _ (fun _ => quiet_ownerUndefineWindow)).effect _
  | enableWindow params => cases h; exact (quiet_takeWrite _ _ (fun _ => quiet_ownerEnableWindow)).effect _
  | drainWindow params => cases h; exact (quiet_takeWrite _ _ (fun _ => quiet_ownerDrainWindow)).effect _
  | resumeWindow params => cases h; exact (quiet_takeWrite _ _ (fun _ => quiet_ownerResumeWindow)).effect _
  | setStallLimit params => cases h; exact (quiet_takeWrite _ _ (fun _ => quiet_ownerSetStallLimit)).effect _
  | publish params => cases h; exact (quiet_takeWrite _ _ (fun _ => quiet_ownerPublish)).effect _
  | abandon params => cases h; exact (quiet_takeWrite _ _ (fun _ => quiet_ownerAbandon)).effect _
  | bindConsumer params => cases h; exact (quiet_takeWrite _ _ (fun _ => quiet_ownerBindConsumer)).effect _
  | unbindConsumer params => cases h; exact (quiet_takeWrite _ _ (fun _ => quiet_ownerUnbindConsumer)).effect _
  | setNoticeRing params => cases h; exact effect_setNoticeRing params _ _ _ s
  | setNoticeMask params => cases h; exact (quiet_takeWrite _ _ (fun _ => quiet_ownerSetNoticeMask)).effect _
  | flushNotices params => cases h; exact (quiet_takeWrite _ _ (fun _ => quiet_ownerFlushNotices)).effect _
  | softReset params => cases h; exact effect_softReset params _ _ s
  | unknownCommandFrame code params => cases h; exact (quiet_unknownCommandFrame code s).effect _
  | readWindowDefinition params => cases h; exact (quiet_takeRead ..).effect _
  | readWindowStatus params => cases h; exact (quiet_takeRead ..).effect _
  | readViewStatus params => cases h; exact (quiet_takeRead ..).effect _
  | readConsumer params => cases h; exact (quiet_takeRead ..).effect _
  | readRingStatus params => exact effect_readRingStatus params h
  | readPartStatus params => cases h; exact (quiet_takeRead ..).effect _
  | readResult params => cases h; exact (quiet_takeRead ..).effect _
  | timebaseIncrement => cases h; refine Quiet.effect ?_ _; exact .of_same rfl rfl rfl
  | sselRiseAfterReset => cases h; refine Quiet.effect ?_ _; exact .of_same rfl rfl rfl

end Sys2Proof.Machine
end

section
/-! SUPPORT. ATTN (R147), INDEX_ERROR (R146) and the reset values of the notice unit (R150), read off the effect of
every command. -/

namespace Sys2Proof.Machine

/-! ### ATTN -/

/-- R147: the condition of ATTN in the terms of the manual. -/
theorem NoticeUnit.attention_iff (n : NoticeUnit) :
    n.attention = true ↔ n.ring = .faulted ∨ (n.ring = .active ∧ n.writtenBack ≠ n.consumed) := by
  unfold NoticeUnit.attention
  cases n.ring <;> simp

/-- ATTN stands at its condition. -/
def NoticeUnit.Attentive (n : NoticeUnit) : Prop := n.attn = n.attention

theorem NoticeUnit.attentive_iff (n : NoticeUnit) :
    n.Attentive ↔ (n.attn = true ↔ n.ring = .faulted ∨ (n.ring = .active ∧ n.writtenBack ≠ n.consumed)) := by
  rw [← n.attention_iff, ← Bool.eq_iff_iff]
  rfl

theorem NoticeUnit.attentive_driveAttn (n : NoticeUnit) : n.driveAttn.Attentive := rfl

theorem NoticeUnit.SameRing.attentive {n n' : NoticeUnit} (h : n.SameRing n') (a : n.Attentive) : n'.Attentive :=
  h.attn.trans (Eq.trans a h.attention_eq.symm)

theorem NoticeUnit.Attentive.takeIndex {n : NoticeUnit} (h : n.Attentive) (d : RingDef) (b : Beat) :
    (n.takeIndex d b).Attentive := by
  unfold NoticeUnit.takeIndex
  split
  · exact h
  split
  · exact attentive_driveAttn _
  · exact h

theorem NoticeUnit.Attentive.complete {n : NoticeUnit} (h : n.Attentive) (f : NoticeInFlight) (status : MemStatus)
    (now : Micros) : (n.complete f status now).Attentive := by
  unfold NoticeUnit.complete
  extract_lets ended
  split
  · exact h
  split
  · exact attentive_driveAttn _
  · exact h
  · exact h
  · exact attentive_driveAttn _

theorem RingChange.attentive {s : State} {c : Instr} {n : NoticeUnit} {p : PartState} (change : RingChange s c n p)
    (h : s.notice.Attentive) : n.Attentive := by
  cases change with
  | unchanged => exact h
  | stored m d b => exact h.takeIndex d b
  | issued f _ => exact h
  | completed _ f status _ => exact h.complete f status _
  | ringSet params d => exact NoticeUnit.attentive_driveAttn _
  | reported => exact h
  | hardReset => rfl
  | resetTaken => exact h

theorem Settles.attentive {n : NoticeUnit} {p : PartState} {t : State} (settled : Settles n p t) (h : n.Attentive) :
    t.notice.Attentive := by
  cases settled with
  | stays notice _ => exact notice.attentive h
  | clears _ notice _ => exact notice.attentive (NoticeUnit.attentive_driveAttn _)

/-! ### INDEX_ERROR -/

theorem NoticeUnit.takeIndex_indexError {n : NoticeUnit} (h : n.indexError = true) (d : RingDef) (b : Beat) :
    (n.takeIndex d b).indexError = true := by
  unfold NoticeUnit.takeIndex
  split
  · rfl
  split
  · exact h
  · rfl

theorem NoticeUnit.complete_indexError (n : NoticeUnit) (f : NoticeInFlight) (status : MemStatus) (now : Micros) :
    (n.complete f status now).indexError = n.indexError := by
  unfold NoticeUnit.complete
  extract_lets ended
  split
  · rfl
  split <;> rfl

/-- R145, R146: what makes a store to the consumed-index word an ignored one, and that it sets INDEX_ERROR alone. -/
theorem NoticeUnit.takeIndex_ignored {n : NoticeUnit} {d : RingDef} {b : Beat}
    (h : b.lanes ≠ 0xFF ∨ d.entries ≤ b.data.toNat ∨
      indexGap d.entries n.write n.consumed < indexGap d.entries b.data.toNat n.consumed) :
    n.takeIndex d b = { n with indexError := true } := by
  unfold NoticeUnit.takeIndex
  split
  · rfl
  next full =>
  have lanes : b.lanes = 0xFF := by simpa [lanesFull] using full
  have outside : n.acceptsIndex d b.data.toNat = false := by
    rcases h with h | h | h
    · exact absurd lanes h
    · simp [NoticeUnit.acceptsIndex, Nat.not_lt.mpr h]
    · simp [NoticeUnit.acceptsIndex, Nat.not_le.mpr h]
  simp [outside]

/-- The commands that change INDEX_ERROR, the clearing of a soft reset apart. -/
theorem RingChange.indexError_cases {s : State} {c : Instr} {n : NoticeUnit} {p : PartState}
    (change : RingChange s c n p) :
    n.indexError = s.notice.indexError ∨ (n.indexError = true ∧ ∃ m, c = .classification m) ∨
    (n.indexError = false ∧
      ((∃ params, c = .readRingStatus params) ∨ (∃ params, c = .setNoticeRing params) ∨ ∃ b, c = .hardReset b)) := by
  cases change with
  | unchanged => exact .inl rfl
  | stored m d b =>
    cases before : s.notice.indexError with
    | true => exact .inl (NoticeUnit.takeIndex_indexError before d b)
    | false =>
      cases after : (s.notice.takeIndex d b).indexError with
      | true => exact .inr (.inl ⟨rfl, m, rfl⟩)
      | false => exact .inl rfl
  | issued => exact .inl rfl
  | completed _ f status _ => exact .inl (NoticeUnit.complete_indexError ..)
  | ringSet params => exact .inr (.inr ⟨rfl, .inr (.inl ⟨params, rfl⟩)⟩)
  | reported params => exact .inr (.inr ⟨rfl, .inl ⟨params, rfl⟩⟩)
  | hardReset b => exact .inr (.inr ⟨rfl, .inr (.inr ⟨b, rfl⟩)⟩)
  | resetTaken => exact .inl rfl

/-- The commands that change the part state, the clearing of a soft reset apart. -/
theorem RingChange.part_cases {s : State} {c : Instr} {n : NoticeUnit} {p : PartState} (change : RingChange s c n p) :
    p = s.link.part ∨ (p = .running ∧ n = .reset) ∨ (p = .resetting ∧ ∃ params, c = .softReset params) := by
  cases change with
  | hardReset => exact .inr (.inl ⟨rfl, rfl⟩)
  | resetTaken params => exact .inr (.inr ⟨rfl, params, rfl⟩)
  | _ => exact .inl rfl

/-- A part that comes out of RESETTING has INDEX_ERROR clear. -/
theorem indexError_of_leaves_resetting {c : Instr} {s t : State} (h : exec c s = .next t)
    (was : s.link.part = .resetting) (runs : t.link.part = .running) : t.notice.indexError = false := by
  obtain ⟨n, p, change, settled⟩ := (exec_noticeEffect h).ring
  cases settled with
  | clears _ notice _ => exact notice.indexError
  | stays notice part =>
    rcases change.part_cases with same | ⟨-, rfl⟩ | ⟨resetting, -⟩
    · simp [← part, runs, was] at same
    · exact notice.indexError
    · simp [← part, runs] at resetting

/-- What clears INDEX_ERROR. -/
theorem clears_indexError {c : Instr} {s t : State} (h : exec c s = .next t) (was : s.notice.indexError = true)
    (is : t.notice.indexError = false) :
    (∃ params, c = .readRingStatus params) ∨ (∃ params, c = .setNoticeRing params) ∨ (∃ b, c = .hardReset b) ∨
    (t.link.part = .running ∧ (s.link.part = .resetting ∨ ∃ params, c = .softReset params)) := by
  obtain ⟨n, p, change, settled⟩ := (exec_noticeEffect h).ring
  cases settled with
  | clears resetting _ runs =>
    refine .inr (.inr (.inr ⟨runs, ?_⟩))
    rcases change.part_cases with same | ⟨running, -⟩ | ⟨-, soft⟩
    · exact .inl (same.symm.trans resetting)
    · cases running.symm.trans resetting
    · exact .inr soft
  | stays notice _ =>
    rw [notice.indexError] at is
    rcases change.indexError_cases with same | ⟨set, -⟩ | ⟨-, read | ring | hard⟩
    · cases (same.symm.trans is).symm.trans was
    · cases set.symm.trans is
    · exact .inl read
    · exact .inr (.inl ring)
    · exact .inr (.inr (.inl hard))

/-- Only the classification of a store sets INDEX_ERROR. -/
theorem sets_indexError {c : Instr} {s t : State} (h : exec c s = .next t) (was : s.notice.indexError = false)
    (is : t.notice.indexError = true) : ∃ m, c = .classification m := by
  obtain ⟨n, p, change, settled⟩ := (exec_noticeEffect h).ring
  cases settled with
  | clears _ notice _ => cases notice.indexError.symm.trans is
  | stays notice _ =>
    rw [notice.indexError] at is
    rcases change.indexError_cases with same | ⟨-, store⟩ | ⟨clear, -⟩
    · cases (same.symm.trans is).symm.trans was
    · exact store
    · cases clear.symm.trans is

/-- A refusal is the frame's, the busy part's, or the owner's own (R153 to R155). -/
theorem frameAnswer_error {ok : Bool} {owner : State → Answer} {s : State} {result : Result} {index : Nat}
    (h : frameAnswer ok owner s = .error (result, index)) :
    result = .refusedFrame ∨ result = .refusedBusy ∨ owner s = .error (result, index) := by
  unfold frameAnswer at h
  split at h
  · cases h; exact .inl rfl
  split at h
  · cases h; exact .inr (.inl rfl)
  · exact .inr (.inr h)

theorem ownerSetNoticeRing_not_accepted {ok : Bool} {frame : List Byte} {s : State} {result : Result} {index : Nat}
    (h : frameAnswer ok (ownerSetNoticeRing frame) s = .error (result, index)) : result ≠ .accepted := by
  rcases frameAnswer_error h with rfl | rfl | owner
  · decide
  · decide
  · rcases ownerSetNoticeRing_cases frame s with ⟨i, refused⟩ | ⟨d, taken⟩
    · cases refused.symm.trans owner; decide
    · cases taken.symm.trans owner

/-- A SET NOTICE RING that the result record shows as taken clears INDEX_ERROR (R137, R146). -/
theorem setNoticeRing_clears_indexError {params : List Byte} {s t : State}
    (h : exec (.setNoticeRing params) s = .next t)
    (accepted : t.link.result.result = .accepted) (sequence : t.link.result.sequence = s.link.result.sequence + 1) :
    t.notice.indexError = false := by
  obtain rfl := Host.Outcome.next.inj h
  generalize frameOf codeSetNoticeRing params = frame at *
  rcases takeWrite_cases codeSetNoticeRing (hasLength 22 frame) (ownerSetNoticeRing frame) s with
    e | ⟨result, index, refused, e⟩ | ⟨t, answered, e⟩ <;> rw [e] at accepted sequence ⊢
  · simp at sequence
  · exact absurd accepted (ownerSetNoticeRing_not_accepted refused)
  · rcases ownerSetNoticeRing_cases frame s with ⟨i, refused⟩ | ⟨d, taken⟩
    · cases refused.symm.trans answered
    · obtain rfl := Except.ok.inj (taken.symm.trans answered)
      rfl

/-- The commit units take no report of a store that includes no commit word (R9). -/
theorem reportCommitWord_of_apart {w m : Fin 16} {id : Nat} {r : Request} {s : State}
    (apart : ∀ d a, s.windows[w].state ≠ .undefined → s.definition w = some d → d.word = some a →
      includesWord r a = false) : reportCommitWord w m id r s = s := by
  unfold reportCommitWord
  split
  · rfl
  next defined =>
  split
  · rfl
  next d hd =>
  split
  · rfl
  next a ha =>
  rw [if_pos (apart d a defined hd ha)]

theorem forWindows_of_id {f : Fin 16 → State → State} {s : State} (h : ∀ w, f w s = s) : forWindows f s = s := by
  unfold forWindows
  generalize windowNumbers = windows
  induction windows with
  | nil => rfl
  | cons w windows ih => rw [List.foldl_cons, h w, ih]

/-- A store outside every window and every commit word that includes the consumed-index word goes through to memory, and
the notice unit alone is told (R9, R145). -/
theorem classification_of_indexStore {m : Fin 16} {r : Request} {d : RingDef} {b : Beat} {s : State}
    (may_take : s.mayTake m r) (one_page : crossesPage r = false) (outside : touchedWindows r s = [])
    (store : r.kind = .write) (set : s.notice.ring ≠ .unset) (defined : s.notice.definition = some d)
    (includes : includesWord r d.consumed = true) (beat : beatHolding r d.consumed = some b)
    (apart : ∀ w d' a, s.windows[(w : Fin 16)].state ≠ .undefined → s.definition w = some d' → d'.word = some a →
      includesWord r a = false) :
    exec (.classification m) s = .next { s.passed m r 0 0 with notice := s.notice.takeIndex d b } := by
  have not_inside : insideWindow r s = none := by simp [insideWindow, outside]
  have watched : isWatchedWrite r s = true := by simp [isWatchedWrite, store, set, defined, includes]
  have entered : enterPassthrough m r (popIntake m s) = s.passed m r 0 0 := by
    simp [enterPassthrough, enter, State.passed, upd, newEntry]
  have untold : ∀ w, reportCommitWord w m s.nextId r (s.passed m r 0 0) = s.passed m r 0 0 := fun w => by
    refine reportCommitWord_of_apart (fun d' a hw hd ha => apart w d' a ?_ ?_ ha)
    · simpa [State.passed] using hw
    · simpa [State.passed, State.definition] using hd
  have notice : (s.passed m r 0 0).notice = s.notice := by simp [State.passed]
  rw [classification_eq may_take one_page (.inr outside)]
  simp only [classifyHead, popIntake_touched, popIntake_inside, popIntake_watched, outside, not_inside, watched,
    if_true, watchedWrite, reportWatched, popIntake_nextId, entered, forWindows_of_id untold]
  simp [reportConsumedIndex, notice, set, defined, includes, beat, State.updNotice]

theorem exec_readRingStatus {params : List Byte} {s : State} (h : s.link.awaitRise = false) :
    exec (.readRingStatus params) s = .next { s with
      link := s.link.captured [0x85] (ringRecord s.notice)
      notice := { s.notice with indexError := false } } := by
  simp [exec, execReadRingStatus, takeRead, h, State.updNotice, State.updLink, Link.captured, codeReadRingStatus]

/-! ### The ring UNSET -/

theorem NoticeUnit.takeIndex_ring (n : NoticeUnit) (d : RingDef) (b : Beat) : (n.takeIndex d b).ring = n.ring := by
  unfold NoticeUnit.takeIndex
  split
  · rfl
  split <;> rfl

theorem NoticeUnit.takeIndex_inFlight (n : NoticeUnit) (d : RingDef) (b : Beat) :
    (n.takeIndex d b).inFlight = n.inFlight := by
  unfold NoticeUnit.takeIndex
  split
  · rfl
  split <;> rfl

theorem NoticeUnit.clearing_ring {n : NoticeUnit} (h : n.ring ≠ .faulted) : n.clearing.ring = n.ring := if_neg h

/-- An UNSET ring without a notice write in flight stays so until SET NOTICE RING (R150). -/
theorem RingChange.unset {s : State} {c : Instr} {n : NoticeUnit} {p : PartState} (change : RingChange s c n p)
    (unset : s.notice.ring = .unset) (idle : s.notice.inFlight = none) (other : ∀ params, c ≠ .setNoticeRing params) :
    n.ring = .unset ∧ n.inFlight = none := by
  cases change with
  | unchanged => exact ⟨unset, idle⟩
  | stored m d b =>
    exact ⟨(s.notice.takeIndex_ring d b).trans unset, (s.notice.takeIndex_inFlight d b).trans idle⟩
  | issued f active => cases unset.symm.trans active
  | completed _ f status flying => cases idle.symm.trans flying
  | ringSet params => exact absurd rfl (other params)
  | reported => exact ⟨unset, idle⟩
  | hardReset => exact ⟨rfl, rfl⟩
  | resetTaken => exact ⟨unset, idle⟩

theorem Settles.unset {n : NoticeUnit} {p : PartState} {t : State} (settled : Settles n p t) (unset : n.ring = .unset)
    (idle : n.inFlight = none) : t.notice.ring = .unset ∧ t.notice.inFlight = none := by
  cases settled with
  | stays notice _ => exact ⟨notice.ring.trans unset, notice.inFlight.trans idle⟩
  | clears _ notice _ =>
    have cleared : n.clearing.ring = n.ring := NoticeUnit.clearing_ring (by simp [unset])
    exact ⟨notice.ring.trans (cleared.trans unset), notice.inFlight.trans idle⟩

end Sys2Proof.Machine

namespace Sys2Proof

open Machine

/-- Settles O56: ATTN stands at its condition through the change that a command makes of the ring, through postings and
through the clearing of a soft reset. -/
theorem attnFollowsIndices : Obligations.AttnFollowsIndices := by
  refine ⟨fun c s t follows h => ?_, fun b s t h => ?_⟩
  · obtain ⟨n, p, change, settled⟩ := (exec_noticeEffect h).ring
    have before : s.notice.Attentive := s.notice.attentive_iff.mpr follows
    exact t.notice.attentive_iff.mp (settled.attentive (change.attentive before))
  · obtain rfl := Host.Outcome.next.inj h
    rfl

/-- Settles O34: the first four clauses are the commands' own effects, the last three are read off the effect of every
command. -/
theorem indexErrorRecordsIgnoredStores : Obligations.IndexErrorRecordsIgnoredStores := by
  refine ⟨?_, fun params s ready => ?_, fun params s t => setNoticeRing_clears_indexError, fun b s t h => ?_,
    fun c s t => indexError_of_leaves_resetting, fun c s t => clears_indexError, fun c s t => sets_indexError⟩
  · intro m r d b s may_take one_page outside store set defined includes beat apart ignored
    rw [classification_of_indexStore may_take one_page outside store set defined includes beat apart,
      NoticeUnit.takeIndex_ignored ignored]
  · rw [exec_readRingStatus ready]
    rfl
  · obtain rfl := Host.Outcome.next.inj h
    rfl

/-- Settles O42: RESET_N gives the notice unit its reset values; an UNSET ring issues no notice write, and no command
but SET NOTICE RING makes it otherwise. -/
theorem hardResetNoticeUnit : Obligations.HardResetNoticeUnit := by
  refine ⟨fun b s => ⟨hardReset b s, rfl, rfl, fun i => by simp [hardReset, State.reset]⟩, ?_⟩
  intro c s t h unset idle other
  obtain ⟨⟨n, p, change, settled⟩, writes⟩ := exec_noticeEffect h
  obtain ⟨ring, inFlight⟩ := change.unset unset idle other
  obtain ⟨ring, inFlight⟩ := settled.unset ring inFlight
  exact ⟨ring, inFlight, writes (by simp [unset])⟩

end Sys2Proof
end

section
/-! SUPPORT. What an operation for one window leaves alone, said once as the relation `Local`, with one lemma per shared
operation: the table entries, rolls, views and commits of the other windows, their slots but for block maps (an idle
copier may choose a block of any window), and a copier that a soft reset has stopped (R88). -/

namespace Sys2Proof.Machine

/-! ### The relation -/

/-- A slot record with its block map forgotten but for its length. -/
def Slot.blur (x : Slot) : Slot := x.updWork (fun k => { k with map := List.replicate k.map.length .notWritten })

/-- The slots of a window with their block maps forgotten. -/
def SlotUnit.blur (u : SlotUnit) : SlotUnit := { u with slots := u.slots.map (Option.map Slot.blur) }

/-- From `s` to `t` only window `w` was worked on. -/
structure Local (w : Fin 16) (s t : State) : Prop where
  windows : ∀ v : Fin 16, v ≠ w → t.windows[v] = s.windows[v]
  slots   : ∀ v : Fin 16, v ≠ w → t.slots[v].map SlotUnit.blur = s.slots[v].map SlotUnit.blur
  rolls   : ∀ v : Fin 16, v ≠ w → t.rolls[v] = s.rolls[v]
  views   : ∀ v : Fin 16, v ≠ w → t.views[v] = s.views[v]
  commits : ∀ v : Fin 16, v ≠ w → t.commits[v] = s.commits[v]
  stopped : s.copierStopped → t.copierStopped
  undefined : t.windows[w].state = .undefined ↔ s.windows[w].state = .undefined

/-- What an operation keeps, whatever its window: a stopped copier stays stopped, and no window becomes UNDEFINED or
ceases to be so. -/
structure Eases (s t : State) : Prop where
  stopped   : s.copierStopped → t.copierStopped
  undefined : ∀ w : Fin 16, t.windows[w].state = .undefined ↔ s.windows[w].state = .undefined

theorem Eases.refl (s : State) : Eases s s := ⟨id, fun _ => .rfl⟩

theorem Eases.trans {s t u : State} (a : Eases s t) (b : Eases t u) : Eases s u :=
  ⟨b.stopped ∘ a.stopped, fun w => (b.undefined w).trans (a.undefined w)⟩

theorem Local.eases {w : Fin 16} {s t : State} (h : Local w s t) : Eases s t := by
  refine ⟨h.stopped, fun v => ?_⟩
  by_cases hv : v = w
  · exact hv ▸ h.undefined
  · rw [h.windows v hv]

theorem Eases.forWindows (f : Fin 16 → State → State) (h : ∀ w t, Eases t (f w t)) (s : State) :
    Eases s (Machine.forWindows f s) := by
  unfold Machine.forWindows
  generalize windowNumbers = windows
  induction windows generalizing s with
  | nil => exact refl s
  | cons w windows ih => exact (h w s).trans (ih _)

namespace Local

theorem refl (w : Fin 16) (s : State) : Local w s s :=
  ⟨fun _ _ => rfl, fun _ _ => rfl, fun _ _ => rfl, fun _ _ => rfl, fun _ _ => rfl, id, .rfl⟩

theorem trans {w : Fin 16} {s t u : State} (a : Local w s t) (b : Local w t u) : Local w s u where
  windows v h := (b.windows v h).trans (a.windows v h)
  slots v h := (b.slots v h).trans (a.slots v h)
  rolls v h := (b.rolls v h).trans (a.rolls v h)
  views v h := (b.views v h).trans (a.views v h)
  commits v h := (b.commits v h).trans (a.commits v h)
  stopped h := b.stopped (a.stopped h)
  undefined := b.undefined.trans a.undefined

/-- A change of none of the tables in question. -/
theorem of_same {w : Fin 16} {s t : State} (windows : t.windows = s.windows) (slots : t.slots = s.slots)
    (rolls : t.rolls = s.rolls) (views : t.views = s.views) (commits : t.commits = s.commits)
    (copier : t.copier = s.copier) (link : t.link = s.link) : Local w s t := by
  refine ⟨?_, ?_, ?_, ?_, ?_, ?_, ?_⟩
  · simp [windows]
  · simp [slots]
  · simp [rolls]
  · simp [views]
  · simp [commits]
  · simp only [State.copierStopped, copier, link]; exact id
  · rw [windows]

/-- A change of the window's table entry that makes it neither UNDEFINED nor otherwise. -/
theorem updWindow (s : State) (w : Fin 16) (f : Window → Window)
    (h : (f s.windows[w]).state = .undefined ↔ s.windows[w].state = .undefined) : Local w s (s.updWindow w f) :=
  ⟨fun _ h => upd_ne _ _ h.symm, fun _ _ => rfl, fun _ _ => rfl, fun _ _ => rfl, fun _ _ => rfl, id, by
    rw [State.updWindow_windows, upd_same]; exact h⟩

theorem updSlotUnit (s : State) (w : Fin 16) (f : SlotUnit → SlotUnit) : Local w s (s.updSlotUnit w f) :=
  ⟨fun _ _ => rfl, fun _ h => congrArg (Option.map _) (upd_ne s.slots (Option.map f) h.symm), fun _ _ => rfl,
    fun _ _ => rfl, fun _ _ => rfl, id, .rfl⟩

theorem updSlot (s : State) (w : Fin 16) (i : Fin 4) (f : Slot → Slot) : Local w s (s.updSlot w i f) :=
  updSlotUnit s w _

theorem updRoll (s : State) (w : Fin 16) (f : RollState → RollState) : Local w s (s.updRoll w f) :=
  ⟨fun _ _ => rfl, fun _ _ => rfl, fun _ h => upd_ne _ _ h.symm, fun _ _ => rfl, fun _ _ => rfl, id, .rfl⟩

theorem updView (s : State) (w : Fin 16) (c : Fin 8) (f : View → View) : Local w s (s.updView w c f) :=
  ⟨fun _ _ => rfl, fun _ _ => rfl, fun _ _ => rfl, fun _ h => upd_ne _ _ h.symm, fun _ _ => rfl, id, .rfl⟩

theorem updCommits (s : State) (w : Fin 16) (f : CommitState → CommitState) : Local w s (s.updCommits w f) :=
  ⟨fun _ _ => rfl, fun _ _ => rfl, fun _ _ => rfl, fun _ _ => rfl, fun _ h => upd_ne _ _ h.symm, id, .rfl⟩

/-- A change of the copier that leaves a stopped one stopped. -/
theorem updCopier (w : Fin 16) {s : State} {f : Copier → Copier}
    (h : s.copierStopped → (s.updCopier f).copierStopped) : Local w s (s.updCopier f) :=
  ⟨fun _ _ => rfl, fun _ _ => rfl, fun _ _ => rfl, fun _ _ => rfl, fun _ _ => rfl, h, .rfl⟩

theorem updEntry (w : Fin 16) (s : State) (m : Fin 16) (id : Nat) (f : Entry → Entry) :
    Local w s (s.updEntry m id f) := of_same rfl rfl rfl rfl rfl rfl rfl

theorem post (w : Fin 16) (b : NoticeBody) (s : State) : Local w s (Machine.post b s) :=
  of_same rfl rfl rfl rfl rfl rfl rfl

theorem foldl {α : Type} {w : Fin 16} (f : State → α → State) (h : ∀ t x, Local w t (f t x)) (l : List α) (s : State) :
    Local w s (l.foldl f s) := by
  induction l generalizing s with
  | nil => exact refl w s
  | cons x l ih => exact (h s x).trans (ih _)

theorem forMasters {w : Fin 16} (f : Fin 16 → State → State) (h : ∀ m t, Local w t (f m t)) (s : State) :
    Local w s (Machine.forMasters f s) := foldl _ (fun t m => h m t) _ s

theorem forConsumers {w : Fin 16} (f : Fin 8 → State → State) (h : ∀ c t, Local w t (f c t)) (s : State) :
    Local w s (Machine.forConsumers f s) := foldl _ (fun t c => h c t) _ s

end Local

/-! ### The copier -/

theorem copierStopped_of_running {s : State} (h : s.link.part ≠ .resetting) : s.copierStopped :=
  fun resetting => absurd resetting h

/-- A stopped copier stays stopped where its urgent list gets no longer, no job comes and its copy is only dropped. -/
theorem copierStopped_of_less {s t : State} (part : t.link.part = s.link.part)
    (urgent : s.copier.urgent = [] → t.copier.urgent = [])
    (jobs : (∀ w : Fin 16, s.copier.jobs[w] = none) → ∀ w : Fin 16, t.copier.jobs[w] = none)
    (copy : (∀ y, s.copier.copy = some y → y.dropped = true) → ∀ y, t.copier.copy = some y → y.dropped = true)
    (h : s.copierStopped) : t.copierStopped := fun resetting =>
  have ⟨hu, hj, hc⟩ := h (part ▸ resetting)
  ⟨urgent hu, jobs hj, copy hc⟩

/-- A change of the buffers or of the rotation pointer alone. -/
theorem local_updCopier_rest (w : Fin 16) (s : State) {f : Copier → Copier} (urgent : (f s.copier).urgent = s.copier.urgent)
    (jobs : (f s.copier).jobs = s.copier.jobs) (copy : (f s.copier).copy = s.copier.copy) :
    Local w s (s.updCopier f) :=
  .updCopier w (copierStopped_of_less rfl (by simp [urgent]) (by simp [jobs]) (by simp [copy]))

/-- A change of the copy in progress that keeps it dropped. -/
theorem local_updCopy (w : Fin 16) (s : State) {f : Copy → Copy} (h : ∀ y, y.dropped = true → (f y).dropped = true) :
    Local w s (s.updCopy f) := by
  refine .updCopier w (copierStopped_of_less rfl id id (fun dropped y hy => ?_))
  obtain ⟨y', hy', rfl⟩ := Option.map_eq_some_iff.mp hy
  exact h y' (dropped y' hy')

theorem Slot.blur_updWork (f : Work → Work) (x : Slot)
    (h : ∀ k, (f k).map.length = k.map.length ∧ (f k).written = k.written ∧ (f k).source = k.source) :
    (x.updWork f).blur = x.blur := by
  obtain ⟨state, pins, inFlight, waiting, hold⟩ := x
  cases state <;> simp [Slot.blur, Slot.updWork, h]

theorem SlotUnit.blur_updSlot (u : SlotUnit) (i : Fin 4) {f : Slot → Slot} (h : ∀ x, (f x).blur = x.blur) :
    SlotUnit.blur { u with slots := upd u.slots i (Option.map f) } = u.blur := by
  have : (upd u.slots i (Option.map f)).map (Option.map Slot.blur) = u.slots.map (Option.map Slot.blur) := by
    apply Vector.ext
    intro j hj
    by_cases hij : (i : Nat) = j
    · subst hij; simp [upd, Function.comp_def, h]
    · simp [upd, Vector.getElem_set_ne, hij]
  simp [SlotUnit.blur, this]

/-- A change of one block map entry, of whatever window. -/
theorem local_setBlock (w v : Fin 16) (i : Fin 4) (b : Nat) (x : BlockState) (s : State) :
    Local w s (setBlock v i b x s) := by
  refine ⟨fun _ _ => rfl, fun j _ => ?_, fun _ _ => rfl, fun _ _ => rfl, fun _ _ => rfl, id, .rfl⟩
  simp only [setBlock, State.updSlot, State.updSlotUnit]
  rw [upd_get]
  split
  · next h =>
    subst h
    cases s.slots[v] with
    | none => rfl
    | some u => exact congrArg some (u.blur_updSlot i (fun y => y.blur_updWork _ (by simp)))
  · rfl

/-- A running copier starts a copy. -/
theorem local_startCopy (w v : Fin 16) (i : Fin 4) (b : Nat) {s : State} (h : s.link.part ≠ .resetting) :
    Local w s (startCopy v i b s) := by
  unfold startCopy
  split
  · exact .refl w s
  · refine (local_setBlock w v i b .copying s).trans (.updCopier w (fun _ => copierStopped_of_running ?_))
    exact h

theorem local_kickCopier (w : Fin 16) (s : State) : Local w s (kickCopier s) := by
  unfold kickCopier
  split
  · exact .refl w s
  next hp =>
  have running : s.link.part ≠ .resetting := by simp [not_not.mp hp]
  have free (f : Copier → Copier) : Local w s (s.updCopier f) :=
    .updCopier w (fun _ => copierStopped_of_running running)
  split
  · exact .refl w s
  split
  · exact (free _).trans (local_startCopy _ _ _ _ running)
  split
  · exact .refl w s
  split
  · exact .refl w s
  split
  · exact .refl w s
  · exact (free _).trans (local_startCopy _ _ _ _ running)

theorem local_addUrgent (w : Fin 16) (u : Urgent) (s : State) : Local w s (addUrgent u s) := by
  unfold addUrgent
  split
  · exact .refl w s
  · next h =>
    refine Local.trans (.updCopier w (fun _ => copierStopped_of_running ?_)) (local_kickCopier w _)
    exact fun resetting => h (.inl resetting)

theorem local_listFirstNeedsCopy (w v : Fin 16) (i : Fin 4) (pieces : List Piece) (s : State) :
    Local w s (listFirstNeedsCopy v i pieces s) := by
  unfold listFirstNeedsCopy
  split
  · exact .refl w s
  · exact local_addUrgent w _ s

theorem local_createJob (w v : Fin 16) (i : Fin 4) (s : State) : Local w s (createJob v i s) := by
  unfold createJob
  split
  · exact .refl w s
  · next h => exact Local.trans (.updCopier w (fun _ => copierStopped_of_running h)) (local_kickCopier w _)

theorem jobs_none_of_removed {v : Fin 16} {jobs : Vector (Option (Fin 4)) 16} (h : ∀ w : Fin 16, jobs[w] = none)
    (w : Fin 16) : (upd jobs v (fun _ => none))[w] = none := upd_forall (p := (· = none)) h rfl w

theorem local_removeJob (w v : Fin 16) (s : State) : Local w s (removeJob v s) :=
  .updCopier w (copierStopped_of_less rfl id jobs_none_of_removed id)

theorem local_endCopy (w : Fin 16) (s : State) : Local w s (s.updCopier Copier.endCopy) :=
  .updCopier w (copierStopped_of_less rfl id id (fun _ _ h => nomatch h))

theorem local_endDropped (w : Fin 16) (s : State) : Local w s (endDropped s) := by
  unfold endDropped
  split
  · exact .refl w s
  split
  · exact .refl w s
  split
  · exact .refl w s
  extract_lets t
  have ht : Local w s t := by
    unfold t
    split
    · split
      · exact local_setBlock ..
      · exact .refl w s
    · exact .refl w s
  exact ht.trans ((local_endCopy w t).trans (local_kickCopier w _))

theorem dropMarks_urgent (v : Fin 16) (s : State) :
    (dropMarks v s).copier.urgent = s.copier.urgent.filter (fun u => decide (u.window ≠ v)) := by
  simp only [dropMarks, removeJob, State.updCopier_copier]
  split
  · rfl
  · split <;> rfl

theorem dropMarks_jobs (v : Fin 16) (s : State) : (dropMarks v s).copier.jobs = upd s.copier.jobs v (fun _ => none) := by
  simp only [dropMarks, removeJob, State.updCopier_copier]
  split
  · rfl
  · split <;> rfl

theorem dropMarks_copy (v : Fin 16) (s : State) : (dropMarks v s).copier.copy =
    s.copier.copy.map (fun y => if y.window = v then { y with dropped := true } else y) := by
  simp only [dropMarks, removeJob, State.updCopier_copier]
  split
  · next h => simp [h]
  · next y h =>
    split
    · next hv => simp [h, hv, Copier.dropFull]
    · next hv => simp [h, hv]

theorem local_dropMarks (w v : Fin 16) (s : State) : Local w s (dropMarks v s) := by
  refine ⟨fun _ _ => rfl, fun _ _ => rfl, fun _ _ => rfl, fun _ _ => rfl, fun _ _ => rfl, ?_, .rfl⟩
  refine copierStopped_of_less rfl (fun urgent => ?_) (fun jobs => ?_) (fun dropped y hy => ?_)
  · simp [dropMarks_urgent, urgent]
  · rw [dropMarks_jobs]
    exact jobs_none_of_removed jobs
  · rw [dropMarks_copy] at hy
    obtain ⟨y', hy', rfl⟩ := Option.map_eq_some_iff.mp hy
    split
    · rfl
    · exact dropped y' hy'

theorem local_dropJobs (w v : Fin 16) (s : State) : Local w s (dropJobs v s) :=
  (local_dropMarks w v s).trans (local_endDropped w _)

/-! ### The slot manager -/

theorem local_stopTimer (w m : Fin 16) (s : State) : Local w s (stopTimer m s) := .of_same rfl rfl rfl rfl rfl rfl rfl

theorem local_startTimer (w m v : Fin 16) (s : State) : Local w s (startTimer m v s) := by
  unfold startTimer
  split
  · exact .refl w s
  · exact .of_same rfl rfl rfl rfl rfl rfl rfl

theorem local_captureSlots (w : Fin 16) (pieces : List Piece) (s : State) : Local w s (captureSlots w pieces s) := by
  refine Local.foldl _ (fun t p => ?_) pieces s
  split
  · exact .updSlot t w _ _
  · exact .refl w t

theorem local_mapWaitingToSlot (m w : Fin 16) (i : Fin 4) (s : State) : Local w s (mapWaitingToSlot m w i s) := by
  unfold mapWaitingToSlot
  split
  · extract_lets pieces t
    have ht : Local w s t := .updEntry w s m _ _
    exact ht.trans ((local_stopTimer w m t).trans ((local_captureSlots w pieces _).trans
      (local_listFirstNeedsCopy ..)))
  · exact .refl w s

theorem local_mapSlotWaits (w : Fin 16) (i : Fin 4) (s : State) : Local w s (mapSlotWaits w i s) := by
  refine Local.forMasters _ (fun m t => ?_) s
  split
  · exact .refl w t
  split
  · exact local_mapWaitingToSlot ..
  · exact .refl w t

theorem local_allocateSlot (w : Fin 16) (d : Definition) (u : SlotUnit) (i : Fin 4) (s : State) :
    Local w s (allocateSlot w d u i s) := by
  unfold allocateSlot
  extract_lets t v
  have ht : Local w s t := (Local.updSlot s w _ _).trans (.updSlotUnit _ w _)
  have hv : Local w t v := by
    unfold v
    split
    · exact (Local.updSlot t w _ _).trans (local_createJob ..)
    · exact .refl w t
  exact ht.trans (hv.trans (local_mapSlotWaits ..))

theorem local_allocate (w : Fin 16) (s : State) : Local w s (allocate w s) := by
  unfold allocate
  split
  · exact .refl w s
  split
  · split
    · exact .refl w s
    split
    · exact .refl w s
    · exact local_allocateSlot ..
  · exact .refl w s

theorem local_retire (w : Fin 16) (i : Fin 4) (s : State) : Local w s (retire w i s) := by
  unfold retire
  split
  · split
    · split
      · exact (Local.updSlot s w _ _).trans (local_allocate ..)
      · exact .updSlot s w _ _
    · exact .refl w s
  · exact .refl w s

theorem local_freeRetiring (w : Fin 16) (i : Fin 4) (s : State) : Local w s (freeRetiring w i s) := by
  unfold freeRetiring
  split
  · exact .refl w s
  split
  · exact (Local.updSlot s w _ _).trans (local_allocate ..)
  · exact .refl w s

theorem local_lowerSlotInFlight (w : Fin 16) (i : Fin 4) (s : State) : Local w s (lowerSlotInFlight w i s) :=
  (Local.updSlot s w _ _).trans (local_freeRetiring ..)

theorem local_lowerSlotWaiting (w : Fin 16) (i : Fin 4) (s : State) : Local w s (lowerSlotWaiting w i s) :=
  (Local.updSlot s w _ _).trans (local_freeRetiring ..)

theorem local_discardSlot (w : Fin 16) (i : Fin 4) (s : State) : Local w s (discardSlot w i s) := by
  unfold discardSlot
  extract_lets src t v
  have hv : Local w s v := (Local.updSlotUnit s w _).trans (.updSlot _ w _ _)
  refine hv.trans ?_
  cases src with
  | none => exact .refl w v
  | some f => exact (Local.updSlot v w _ _).trans (local_retire ..)

theorem local_startSlotTimers (w : Fin 16) (s : State) : Local w s (startSlotTimers w s) := by
  unfold startSlotTimers
  split
  · exact .refl w s
  split
  · exact .refl w s
  refine Local.forMasters _ (fun m t => ?_) s
  split
  · exact .refl w t
  · split
    · exact (Local.updEntry w t m _ _).trans (local_startTimer ..)
    · exact .refl w t

/-! ### The roll unit and the view unit -/

theorem local_mapWaitingToRing (m w : Fin 16) (s : State) : Local w s (mapWaitingToRing m w s) := by
  unfold mapWaitingToRing
  split
  · extract_lets pieces t
    have ht : Local w s t := .updEntry w s m _ _
    refine ht.trans ?_
    split
    · exact local_startTimer ..
    · exact .refl w t
  · exact .refl w s

theorem local_captureReads (w : Fin 16) (pieces : List Piece) (s : State) : Local w s (captureReads w pieces s) := by
  refine Local.foldl _ (fun t p => ?_) pieces s
  split
  · exact .updRoll t w _
  · exact .refl w t

theorem local_releaseVisibility (w v : Fin 16) (s : State) : Local w s (releaseVisibility v s) := by
  unfold releaseVisibility
  split
  · split
    · exact .refl w s
    refine Local.forMasters _ (fun m t => ?_) s
    split
    · exact .refl w t
    · split
      · exact (Local.updEntry w t m _ _).trans (local_stopTimer ..)
      · exact .refl w t
  · exact .refl w s

theorem local_lowerRead (w : Fin 16) (q : Nat) (s : State) : Local w s (lowerRead w q s) := by
  unfold lowerRead
  extract_lets t
  have ht : Local w s t := .updRoll s w _
  refine ht.trans ?_
  split
  · split
    · exact local_releaseVisibility ..
    · exact .refl w t
  · exact .refl w t

theorem local_leaveSeeing (w : Fin 16) (s : State) : Local w s (leaveSeeing w s) :=
  (Local.updRoll s w _).trans (local_releaseVisibility ..)

theorem local_unpinSlot (w : Fin 16) (i : Fin 4) (s : State) : Local w s (unpinSlot w i s) :=
  (Local.updSlot s w _ _).trans (local_retire ..)

theorem local_restartIdle (w : Fin 16) (c : Fin 8) (s : State) : Local w s (restartIdle w c s) := by
  unfold restartIdle
  split
  · exact .refl w s
  · exact .updView s w _ _

theorem local_pinFront (w : Fin 16) (s : State) : Local w s (pinFront w s) := by
  unfold pinFront
  split
  · exact .updSlot s w _ _
  · exact .refl w s

theorem local_movePin (w : Fin 16) (c : Fin 8) (s : State) : Local w s (movePin w c s) := by
  unfold movePin
  split
  · exact .refl w s
  extract_lets t
  have ht : Local w s t := .updView s w _ _
  refine ht.trans ?_
  split
  · split
    · split
      · exact .refl w t
      · exact (local_unpinSlot ..).trans (.updSlot _ w _ _)
    · exact .refl w t
  · split
    · exact local_leaveSeeing ..
    · exact .refl w t
  · exact local_pinFront ..
  · exact local_pinFront ..

theorem local_frameStart (w : Fin 16) (c : Fin 8) (s : State) : Local w s (frameStart w c s) :=
  (local_movePin ..).trans ((Local.updView _ w _ _).trans (local_restartIdle ..))

theorem local_latePin (w : Fin 16) (c : Fin 8) (s : State) : Local w s (latePin w c s) :=
  (local_movePin ..).trans (local_restartIdle ..)

theorem local_consumerRead (w : Fin 16) (c : Fin 8) (first last : Nat) (s : State) :
    Local w s (consumerRead w c first last s) := by
  unfold consumerRead
  split
  · next b v _ _ =>
    extract_lets p t
    have hp : Local w s p := by
      unfold p
      split
      · exact local_frameStart ..
      split
      · exact local_latePin ..
      · exact .refl w s
    have ht : Local w s t := hp.trans (local_restartIdle ..)
    refine ht.trans ?_
    split
    · exact .updView t w _ _
    · exact .refl w t
  · exact .refl w s

theorem local_givePinUp (w : Fin 16) (held : ViewState) (s : State) : Local w s (givePinUp w held s) := by
  unfold givePinUp
  split
  · exact local_unpinSlot ..
  · split
    · exact local_leaveSeeing ..
    · exact .refl w s
  · exact .refl w s

theorem local_tearView (w : Fin 16) (c : Fin 8) (s : State) : Local w s (tearView w c s) := by
  unfold tearView
  split
  · exact .refl w s
  · exact (Local.updView s w _ _).trans ((local_givePinUp ..).trans (.post ..))

theorem local_tearSlot (w : Fin 16) (i : Fin 4) (s : State) : Local w s (tearSlot w i s) := by
  refine Local.forConsumers _ (fun c t => ?_) s
  split
  · exact local_tearView ..
  · exact .refl w t

theorem local_tearSeeing (w : Fin 16) (s : State) : Local w s (tearSeeing w s) := by
  refine Local.forConsumers _ (fun c t => ?_) s
  split
  · exact local_tearView ..
  · exact .refl w t

theorem local_idleRelease (w : Fin 16) (c : Fin 8) (s : State) : Local w s (idleRelease w c s) := by
  unfold idleRelease
  split
  · exact .refl w s
  extract_lets t
  have ht : Local w s t := .updView s w _ _
  refine ht.trans ?_
  split
  · exact .refl w t
  · exact .refl w t
  · exact (local_givePinUp ..).trans (.post ..)

/-! ### Waits and publication -/

theorem local_lowerWaiting (w : Fin 16) (s : State) : Local w s (lowerWaiting w s) := .updWindow s w _ .rfl

theorem local_lowerDrain (w : Fin 16) (s : State) : Local w s (lowerDrain w s) := .updCommits s w _

theorem local_forgetPiece (w : Fin 16) (p : Piece) (s : State) : Local w s (forgetPiece w p s) := by
  unfold forgetPiece
  split
  · exact .refl w s
  split
  · exact .refl w s
  · exact local_lowerSlotWaiting ..
  · exact .refl w s
  · exact local_lowerRead ..

/-- A request of window `w`, or of no window, is answered from its wait. -/
theorem local_answerWaiting {m w : Fin 16} (reason : Reason) {s : State}
    (h : ∀ e v, s.current m = some e → e.window = some v → v = w) : Local w s (answerWaiting m reason s) := by
  unfold answerWaiting
  split
  · exact .refl w s
  · next e he =>
    extract_lets t
    have ht : Local w s t := (Local.updEntry w s m _ _).trans (local_stopTimer ..)
    split
    · exact ht
    · next v hv =>
      obtain rfl := h e v he hv
      extract_lets a b c
      have hb : Local v a b := by
        unfold b
        split
        · exact local_lowerDrain ..
        · exact .refl v a
      have hc : Local v s c := ht.trans ((local_lowerWaiting v t).trans (hb.trans (.post ..)))
      exact hc.trans (.foldl _ (fun _ _ => local_forgetPiece ..) _ _)

theorem local_answerAll {w : Fin 16} {test : Entry → Bool} (reason : Reason) (s : State)
    (h : ∀ e, test e = true → e.window = some w) : Local w s (answerAll test reason s) := by
  refine Local.forMasters _ (fun m t => ?_) s
  split
  · exact .refl w t
  next e he =>
  split
  · next tested =>
    refine local_answerWaiting reason (fun e' v he' hv => ?_)
    obtain rfl := Option.some.inj (he.symm.trans he')
    exact Option.some.inj (hv.symm.trans (h e tested))
  · exact .refl w t

theorem local_placeWrite (m w : Fin 16) (s : State) : Local w s (placeWrite m w s) := by
  unfold placeWrite
  split
  · exact .refl w s
  split
  · exact .updEntry w s m _ _
  split
  · exact local_mapWaitingToRing ..
  split
  · exact local_mapWaitingToSlot ..
  split
  · exact (Local.updEntry w s m _ _).trans (local_startTimer ..)
  · exact .updEntry w s m _ _

theorem Entry.window_of_fencedAt {w : Fin 16} {e : Entry} (h : e.fencedAt w = true) : e.window = some w := by
  simp only [Entry.fencedAt, Bool.and_eq_true, decide_eq_true_eq] at h
  exact h.1

theorem Entry.window_of_isWriteOf {w : Fin 16} {e : Entry} (h : e.isWriteOf w = true) : e.window = some w := by
  simp only [Entry.isWriteOf, Bool.and_eq_true, decide_eq_true_eq] at h
  exact h.1

theorem local_reclassifyFenced (w : Fin 16) (s : State) : Local w s (reclassifyFenced w s) := by
  refine Local.forMasters _ (fun m t => ?_) s
  split
  · exact .refl w t
  next e he =>
  split
  · next fenced =>
    split
    · refine local_answerWaiting _ (fun e' v he' hv => ?_)
      obtain rfl := Option.some.inj (he.symm.trans he')
      exact Option.some.inj (hv.symm.trans (e.window_of_fencedAt fenced))
    · exact local_placeWrite ..
  · exact .refl w t

theorem local_freeGeneration (w : Fin 16) (g : BitVec 32) (s : State) : Local w s (freeGeneration w g s) := by
  unfold freeGeneration
  split
  · exact .refl w s
  split
  · exact .refl w s
  · exact (local_tearSlot ..).trans (local_retire ..)

theorem local_publishSlot (w : Fin 16) (i : Fin 4) (tag : BitVec 16) (s : State) : Local w s (publishSlot w i tag s) := by
  unfold publishSlot
  split
  · exact .refl w s
  · extract_lets g source a b c d e
    have hb : Local w s b :=
      (local_freeGeneration w g s).trans ((Local.updSlotUnit a w _).trans (.updSlot _ w _ _))
    have hd : Local w c d := by
      unfold d
      cases source with
      | none => exact .refl w c
      | some f => exact .updSlot c w _ _
    exact hb.trans ((local_removeJob w w b).trans
      (hd.trans ((local_retire w _ d).trans ((Local.post ..).trans (local_allocate ..)))))

theorem local_sealSlot (w : Fin 16) (i : Fin 4) (tag : BitVec 16) (s : State) : Local w s (sealSlot w i tag s) :=
  (Local.updSlotUnit s w _).trans (.updSlot _ w _ _)

theorem local_discardTake (w : Fin 16) (reason : Reason) (missing : Nat) (c : Commit) (s : State) :
    Local w s (discardTake w reason missing c s).1 := .post ..

theorem local_takePublish (w : Fin 16) (c : Commit) (s : State) : Local w s (takePublish w c s).1 := by
  unfold takePublish
  split
  · split
    · exact local_discardTake ..
    split
    · exact local_discardTake ..
    split
    · exact local_discardTake ..
    split
    · exact local_sealSlot ..
    · exact local_publishSlot ..
  · exact local_discardTake ..

theorem local_takeAbandon (w : Fin 16) (c : Commit) (s : State) : Local w s (takeAbandon w c s).1 := by
  unfold takeAbandon
  split
  · exact local_discardTake ..
  · exact (local_discardSlot ..).trans ((local_dropJobs ..).trans ((Local.post ..).trans (local_allocate ..)))

theorem local_takeAdvance (w : Fin 16) (c : Commit) (s : State) : Local w s (takeAdvance w c s).1 := by
  unfold takeAdvance
  split
  · extract_lets n a b
    have hb : Local w a b := .forConsumers _ (fun c t => .updView t w c _) a
    exact (Local.updRoll s w _).trans (hb.trans (.post ..))
  · exact .refl w s

theorem local_ownerTake (w : Fin 16) (c : Commit) (s : State) : Local w s (ownerTake w c s).1 := by
  unfold ownerTake
  split
  · exact local_takeAdvance ..
  split
  · exact local_takePublish ..
  · exact local_takeAbandon ..

theorem local_reclaimSlot (w : Fin 16) (s : State) : Local w s (reclaimSlot w s) := by
  unfold reclaimSlot
  split
  · exact .refl w s
  · exact (local_tearSlot ..).trans (local_retire ..)

theorem local_reclaimTarget (w : Fin 16) (s : State) : Local w s (reclaimTarget w s) :=
  (local_tearSeeing w s).trans (local_releaseVisibility ..)

/-! ### The commit unit -/

theorem local_releaseTrigger (w : Fin 16) (trigger : Option (Fin 16 × Nat)) (taken : Bool) (s : State) :
    Local w s (releaseTrigger trigger taken s) := by
  unfold releaseTrigger
  split
  · exact .refl w s
  · exact .updEntry w s _ _ _

theorem local_discardCommit (w v : Fin 16) (reason : Reason) (c : Commit) (s : State) :
    Local w s (discardCommit v reason c s) := (Local.post w _ s).trans (local_releaseTrigger ..)

theorem local_mapEntries (w : Fin 16) (s : State) (f : Entry → Entry) :
    Local w s { s with responses := s.responses.map (List.map f) } := .of_same rfl rfl rfl rfl rfl rfl rfl

theorem local_discardAll (w : Fin 16) (reason : Reason) (s : State) : Local w s (discardAll w reason s) := by
  unfold discardAll
  extract_lets commits t
  have ht : Local w s t := (local_mapEntries w s _).trans (.updCommits _ w _)
  exact ht.trans (.foldl _ (fun _ _ => local_discardCommit ..) _ _)

theorem local_discardQueue (w : Fin 16) (reason : Reason) (s : State) : Local w s (discardQueue w reason s) := by
  unfold discardQueue
  extract_lets commits t
  have ht : Local w s t := .updCommits s w _
  exact ht.trans (.foldl _ (fun _ _ => local_discardCommit ..) _ _)

theorem local_beginCommit (w : Fin 16) (c : Commit) (s : State) : Local w s (beginCommit w c s) :=
  (local_mapEntries w s _).trans (.updCommits _ w _)

theorem local_dropAfterTake (w : Fin 16) (s : State) : Local w s (dropAfterTake w s) := by
  unfold dropAfterTake
  split
  · exact local_dropJobs ..
  · exact .refl w s

theorem local_takeOnce (w : Fin 16) (c : Commit) (s : State) : Local w s (takeOnce w c s) := by
  unfold takeOnce
  have h := local_ownerTake w c s
  generalize ownerTake w c s = r at h
  obtain ⟨t, taken⟩ := r
  exact h.trans ((local_releaseTrigger w c.trigger taken t).trans ((local_dropAfterTake w _).trans
    ((Local.updCommits _ w _).trans (local_reclassifyFenced w _))))

theorem local_beginNext (w : Fin 16) (s : State) : Local w s (beginNext w s) := by
  unfold beginNext
  split
  · exact .refl w s
  · split
    · exact (Local.updCommits s w _).trans (local_beginCommit ..)
    · exact .refl w s

theorem local_takeNext (w : Fin 16) (s : State) : Local w s (takeNext w s) := by
  unfold takeNext
  split
  · exact .refl w s
  · exact (local_takeOnce w _ s).trans (local_beginNext w _)

theorem local_takeCommit (w : Fin 16) (s : State) : Local w s (takeCommit w s) := by
  unfold takeCommit
  generalize s.commits[w].queue.length + 1 = fuel
  induction fuel generalizing s with
  | zero => exact .refl w s
  | succ fuel ih => exact (local_takeNext w s).trans (ih _)

theorem local_arrive (w : Fin 16) (c : Commit) (s : State) : Local w s (arrive w c s) := by
  unfold arrive
  split
  · exact local_discardCommit ..
  · split
    · exact (local_beginCommit ..).trans (local_takeCommit ..)
    · exact .updCommits s w _

theorem local_reportCommitWord (w m : Fin 16) (id : Nat) (r : Request) (s : State) :
    Local w s (reportCommitWord w m id r s) := by
  unfold reportCommitWord
  split
  · exact .refl w s
  split
  · exact .refl w s
  split
  · exact .refl w s
  split
  · exact .refl w s
  split
  · exact .refl w s
  split
  · exact .refl w s
  · exact .post ..
  · exact (Local.updEntry w s m id _).trans (local_arrive ..)

theorem local_closingCommit (m : Fin 16) (e : Entry) (w : Fin 16) (s : State) : Local w s (closingCommit m e w s) := by
  unfold closingCommit
  split
  · exact (Local.updEntry w s m _ _).trans (local_arrive ..)
  · exact .updEntry w s m _ _

/-! ### The window controller -/

theorem local_discardForHalt (w : Fin 16) (s : State) : Local w s (discardForHalt w s).1 := by
  unfold discardForHalt
  split
  · exact local_discardSlot ..
  · exact local_discardSlot ..
  · exact .refl w s

theorem Entry.window_of_deniableWrite {w : Fin 16} {e : Entry} (h : e.deniableWrite w = true) : e.window = some w :=
  e.window_of_isWriteOf (Bool.and_eq_true _ _ ▸ h).1

theorem local_haltWindow {w : Fin 16} (cause : HaltCause) {s : State} (live : s.windows[w].state = .live) :
    Local w s (haltWindow w cause s) := by
  unfold haltWindow
  extract_lets t
  have ht : Local w s t := .updWindow s w _ (by rw [live]; simp)
  have h := local_discardForHalt w t
  generalize discardForHalt w t = r at h
  obtain ⟨u, discarded⟩ := r
  exact (ht.trans h).trans ((local_dropJobs w w u).trans ((Local.post ..).trans
    ((local_discardAll w _ _).trans (local_answerAll _ _ (fun _ => Entry.window_of_deniableWrite)))))

theorem local_faultReport (w : Fin 16) (cause : HaltCause) (s : State) : Local w s (faultReport w cause s) := by
  unfold faultReport
  split
  · next h => exact local_haltWindow _ h.2.1
  · exact .refl w s

theorem local_removeWorkingState (w : Fin 16) (s : State) : Local w s (removeWorkingState w s) := by
  unfold removeWorkingState
  extract_lets t
  have ht : Local w s t :=
    ⟨fun _ _ => rfl, fun v h => congrArg (Option.map _) (upd_ne s.slots _ h.symm), fun v h => upd_ne s.rolls _ h.symm,
      fun v h => upd_ne s.views _ h.symm, fun _ _ => rfl, id, .rfl⟩
  refine ht.trans ((local_removeJob w w t).trans (.updCopier w (copierStopped_of_less rfl ?_ id id)))
  exact fun urgent => by simp [urgent]

theorem local_becomeDefined {w : Fin 16} {s : State} (defined : s.windows[w].state ≠ .undefined) :
    Local w s (becomeDefined w s) := .updWindow s w _ (by simpa using defined)

theorem local_completeDrain {w : Fin 16} {s : State} (defined : s.windows[w].state ≠ .undefined) :
    Local w s (completeDrain w s) :=
  (local_removeWorkingState w s).trans
    ((local_becomeDefined (s := removeWorkingState w s) defined).trans (.post ..))

theorem local_testDrain (w : Fin 16) (s : State) : Local w s (testDrain w s) := by
  unfold testDrain
  split
  · next h => exact local_completeDrain (ne_of_eq_of_ne h.2.1 (by decide))
  · exact .refl w s

theorem Entry.window_of_closedByDrain {w : Fin 16} {dropped : Bool} {e : Entry} (h : e.closedByDrain w dropped = true) :
    e.window = some w := by
  simp only [Entry.closedByDrain, Bool.and_eq_true] at h
  exact e.window_of_isWriteOf h.1.1

theorem local_drainWindow {w : Fin 16} {s : State} (defined : s.windows[w].state ≠ .undefined) :
    Local w s (drainWindow w s) := by
  unfold drainWindow
  extract_lets t u
  have ht : Local w s t := .updWindow s w _ (by simpa using defined)
  have hu : Local w s u := ht.trans (local_discardQueue w _ t)
  have h : Local w u (drainDrop w u).1 := by
    unfold drainDrop
    split
    · exact local_dropJobs ..
    · exact .refl w u
  generalize drainDrop w u = r at h
  obtain ⟨v, dropped⟩ := r
  exact (hu.trans h).trans ((local_answerAll _ v (fun _ => Entry.window_of_closedByDrain)).trans (local_testDrain w _))

theorem local_clearWindow (w : Fin 16) (s : State) : Local w s (clearWindow w s) := by
  unfold clearWindow
  split
  · next working =>
    refine (local_removeWorkingState w s).trans (local_becomeDefined (s := removeWorkingState w s) ?_)
    intro undefined
    rw [show s.windows[w].state = .undefined from undefined] at working
    cases working
  · exact .refl w s

theorem Entry.window_of_deniable {w : Fin 16} {e : Entry} (h : e.deniable w = true) : e.window = some w := by
  simp only [Entry.deniable, Bool.and_eq_true, decide_eq_true_eq] at h
  exact h.1

theorem local_resetWaits (slotted : Bool) (w : Fin 16) (s : State) : Local w s (resetWaits slotted w s) := by
  unfold resetWaits
  split
  · exact local_answerAll _ _ (fun _ => Entry.window_of_deniable)
  · exact .refl w s

theorem local_enableWindow {w : Fin 16} (d : Definition) (front : Fin 4) {s : State}
    (defined : s.windows[w].state ≠ .undefined) : Local w s (enableWindow w d front s) := by
  unfold enableWindow
  extract_lets a b c
  have hc : Local w s c :=
    ((Local.updWindow s w _ (by simpa using defined)).trans (.updCommits _ w _)).trans
      ⟨fun _ _ => rfl, fun _ _ => rfl, fun _ _ => rfl, fun v h => upd_ne b.views _ h.symm, fun _ _ => rfl, id, .rfl⟩
  refine hc.trans ?_
  split
  · refine Local.trans ?_ (local_allocate w _)
    exact ⟨fun _ _ => rfl, fun v h => congrArg (Option.map _) (upd_ne c.slots _ h.symm), fun _ _ => rfl,
      fun _ _ => rfl, fun _ _ => rfl, id, .rfl⟩
  · exact ⟨fun _ _ => rfl, fun _ _ => rfl, fun v h => upd_ne c.rolls _ h.symm, fun _ _ => rfl, fun _ _ => rfl, id, .rfl⟩

/-! ### The copier's reports -/

theorem local_clearCopyWait (m w : Fin 16) (i : Fin 4) (b : Nat) (s : State) : Local w s (clearCopyWait m w i b s) := by
  unfold clearCopyWait
  split
  · exact .refl w s
  · extract_lets clear
    split
    · exact (Local.updEntry w s m _ _).trans (local_listFirstNeedsCopy ..)
    · exact .refl w s

theorem local_reportCopyEnd (w : Fin 16) (i : Fin 4) (b : Nat) (s : State) : Local w s (reportCopyEnd w i b s) := by
  unfold reportCopyEnd
  refine Local.trans (Local.forMasters _ (fun m t => local_clearCopyWait m w i b t) s) ?_
  unfold publishSealed
  split
  · split
    · exact .refl w _
    · exact (local_publishSlot ..).trans (local_startSlotTimers ..)
  · exact .refl w _

theorem local_draws (w : Fin 16) (n : Nat) (s : State) : Local w s { s with draws := n } :=
  .of_same rfl rfl rfl rfl rfl rfl rfl

theorem local_endOfCopy (y : Copy) (s : State) : Local y.window s (endCopy y s) := by
  unfold endCopy
  extract_lets marked t
  have ht : Local y.window s t :=
    (local_setBlock y.window y.window y.dest y.block .copied s).trans
      (local_draws y.window (s.draws + 1) (setBlock y.window y.dest y.block .copied s))
  clear_value t
  split
  · exact ht.trans ((local_endCopy ..).trans ((local_kickCopier ..).trans (local_reportCopyEnd ..)))
  · exact ht.trans ((local_reportCopyEnd ..).trans ((local_endCopy ..).trans (local_kickCopier ..)))

theorem local_startRetry (w : Fin 16) (s : State) : Local w s (startRetry s) := by
  refine .updCopier w (copierStopped_of_less rfl id id (fun dropped y hy => ?_))
  obtain ⟨y', hy', rfl⟩ := Option.map_eq_some_iff.mp hy
  exact dropped y' hy'

theorem local_afterLastBurst (w : Fin 16) (s : State) : Local w s (afterLastBurst s) := by
  unfold afterLastBurst
  split
  · exact .refl w s
  split
  · exact .refl w s
  split
  · exact local_endDropped w s
  split
  · exact local_startRetry w s
  · exact .refl w s

theorem Entry.window_of_deniableOn {w : Fin 16} {i : Fin 4} {e : Entry} (h : e.deniableOn w i = true) :
    e.window = some w := by
  simp only [Entry.deniableOn, Bool.and_eq_true] at h
  exact e.window_of_deniableWrite h.1

theorem local_backfillFailure (y : Copy) (s : State) : Local y.window s (backfillFailure y s) := by
  unfold backfillFailure
  extract_lets w lost a b c d e
  have ha : Local w s a := local_dropMarks w w s
  have hb : Local w a b := .post ..
  have hc : Local w b c := local_answerAll _ b (fun _ => Entry.window_of_deniableOn)
  have hd : Local w c d := local_discardSlot ..
  have he : Local w d e := local_faultReport ..
  exact ((((ha.trans hb).trans hc).trans hd).trans he).trans
    ((local_allocate w e).trans ((local_startSlotTimers w _).trans (local_endDropped w _)))

theorem local_burstCompleted (i : Fin 4) (b : Buffer) (y : Copy) (status : MemStatus) (data : List Dword) (s : State) :
    Local y.window s (burstCompleted i b y status data s) := by
  unfold burstCompleted
  extract_lets t cleared
  have ht : Local y.window s t := local_lowerSlotInFlight ..
  have hc : Local y.window s cleared := ht.trans (local_updCopier_rest _ t rfl rfl rfl)
  split
  · exact hc.trans (local_afterLastBurst ..)
  split
  · refine hc.trans ?_
    unfold burstFault
    split
    · refine Local.trans (local_updCopy _ _ ?_) ((local_updCopier_rest _ _ rfl rfl rfl).trans (local_afterLastBurst ..))
      exact fun _ => id
    · exact local_backfillFailure ..
  · exact ht.trans (local_updCopier_rest _ t rfl rfl rfl)
  · refine hc.trans ?_
    unfold chunkWritten
    extract_lets u
    have hu : Local y.window cleared u := local_updCopy _ _ (fun _ dropped => dropped)
    split
    · exact hu
    split
    · exact hu.trans (local_endOfCopy ..)
    · exact hu

end Sys2Proof.Machine
end

section
/-! SUPPORT. What each command can do to the whole state, said once: a command is a chain of moves (`exec_moves`), each of
which bears the name of what it does, with what the command has checked before it. Every invariant of the whole machine
is then a fact about each move. -/

namespace Sys2Proof.Machine

/-! ### The moves -/

/-- One move of command `c`. -/
inductive Move (c : Instr) : State → State → Prop
  /-- Working state moves, a stopped copier stays stopped and no window becomes UNDEFINED or ceases to be so. -/
  | works {s t : State} (works : Works s t) (eases : Eases s t) : Move c s t
  /-- A request arrives (R4). -/
  | arrives (m : Fin 16) (r : Request) (s : State) (is : c = .requestArrival m r) : Move c s (arriveRequest m r s)
  /-- A head request leaves its intake queue (R4). -/
  | pops (m : Fin 16) (s : State) (is : c = .classification m) : Move c s (popIntake m s)
  /-- An entry joins a response list that has room and no WAITING entry (R5, R6). -/
  | enters (m : Fin 16) (r : Request) (w : Option (Fin 16)) (stage : Stage) (pieces : List Piece) (s : State)
      (is : c = .classification m) (room : s.responses[m].length < 16)
      (free : (s.responses[m].map Entry.id).Nodup → s.responses[m].countP Entry.isWaiting = 0) :
      Move c s (enter m r w stage pieces s)
  /-- A store reaches the consumed-index word (R145). -/
  | stores (d : RingDef) (b : Beat) (s : State) (defined : s.notice.definition = some d) :
      Move c s (s.updNotice (fun n => n.takeIndex d b))
  /-- The rotation of the arbiter moves on (R17). -/
  | grants (x : Contender) (s : State) (is : c = .issueGrant) : Move c s { s with lastGranted := x }
  /-- A memory request takes a place (R17). -/
  | places (i : Fin 32) (q : MemRequest) (s : State) (is : c = .issueGrant) : Move c s (takePlace i q s)
  /-- A write-back is issued (R144). -/
  | announces (d : RingDef) (v : Nat) (s : State) (defined : s.notice.definition = some d)
      (value : v = 0 ∨ v = s.notice.write) : Move c s (s.updNotice (fun n =>
        { n with owed := false, flush := false, holdoff := .stopped, inFlight := some ⟨.writeBack v, false⟩ }))
  /-- The record at the head of the pending queue is issued (R142). -/
  | publishes (d : RingDef) (x : Notice) (rest : List Notice) (s : State) (defined : s.notice.definition = some d)
      (pending : s.notice.pending = x :: rest) : Move c s (s.updNotice (fun n =>
        { n with pending := rest, lost := 0, inFlight := some ⟨.record, false⟩ }))
  /-- A place is given back (R18). -/
  | releases (i : Fin 32) (s : State) : Move c s (releasePlace i s)
  /-- The notice write in flight completes (R142, R144, R148). -/
  | completes (f : NoticeInFlight) (status : MemStatus) (s : State) (flying : s.notice.inFlight = some f) :
      Move c s (s.updNotice (fun n => n.complete f status s.timebase))
  /-- A response is sent (R21). -/
  | sends (m : Fin 16) (s : State) (is : c = .responseSent m) : Move c s (sendResponse m s)
  /-- RESET_N resets the part (R22). -/
  | resets (b : Bool) (s : State) (is : c = .hardReset b) : Move c s (hardReset b s)
  /-- The holdoff timer expires or stops (R143, R149). -/
  | holds (x : Holdoff) (s : State) : Move c s (s.updNotice (fun n => { n with holdoff := x }))
  /-- The clearing of a soft reset clears the notice unit (R149). -/
  | clears (s : State) : Move c s (s.updNotice NoticeUnit.clearing)
  /-- The clearing of a soft reset ends with the part RUNNING (R165). -/
  | runs (s : State) : Move c s (s.updLink (fun l => { l with part := .running }))
  /-- SOFT RESET makes the part RESETTING and stops the copier (R88, R163). -/
  | suspends (params : List Byte) (s : State) {t : State} (is : c = .softReset params)
      (works : Works (s.updLink (fun l => { l with part := .resetting })) t) (stopped : t.copierStopped)
      (undefined : ∀ w : Fin 16, t.windows[w].state = .undefined ↔ s.windows[w].state = .undefined) : Move c s t
  /-- DEFINE WINDOW gives a definition that the relational checks let pass (R28, R29). -/
  | defines (w : Fin 16) (d : Definition) (s : State) (is : configures c = true)
      (fits : relationalCheck w d s = none) :
      Move c s (s.updWindow w (fun x => { x with state := .defined, definition := some d }))
  /-- SET COMMIT WORD gives a word that overlaps nothing, or none (R32). -/
  | words (w : Fin 16) (d : Definition) (a : Option Addr) (s : State) (is : configures c = true)
      (state : s.windows[w].state = .defined) (definition : s.definition w = some d)
      (apart : ∀ x, a = some x → wordOverlaps w d x s = false) :
      Move c s (s.updWindow w (fun x => { x with definition := some { d with word := a } }))
  /-- UNDEFINE WINDOW (R32). -/
  | undefines (w : Fin 16) (s : State) (is : configures c = true) :
      Move c s (s.updWindow w (fun x => { x with state := .undefined, definition := none }))
  /-- SET STALL LIMIT (R35). -/
  | limits (w : Fin 16) (n : Nat) (s : State) (is : configures c = true) :
      Move c s (s.updWindow w (fun x => { x with definition := x.definition.map (fun d => { d with limit := n }) }))
  /-- BIND CONSUMER and UNBIND CONSUMER (R107). -/
  | binds (consumers : Vector (Option Binding) 8) (s : State) (is : configures c = true) :
      Move c s { s with consumers := consumers }
  /-- SET NOTICE RING gives a definition that the checks let pass, or none (R137). -/
  | rings (d : Option RingDef) (s : State) (is : configures c = true)
      (fits : ∀ x, d = some x → x.entries ∈ ringSizes ∧ ringOverlap x s = none) :
      Move c s (s.updNotice (fun n => n.setRing d))
  /-- SET NOTICE MASK (R140). -/
  | masks (x : BitVec 16) (s : State) (is : configures c = true) :
      Move c s (s.updNotice (fun n => { n with mask := x }))
  /-- FLUSH NOTICES (R144). -/
  | flushes (s : State) (is : configures c = true) : Move c s (s.updNotice (fun n => { n with flush := true }))
  /-- The outcome of a write command is recorded (R154). -/
  | records (code : Byte) (result : Result) (index : Nat) (s : State) (is : configures c = true) :
      Move c s (recordResult code result index s)
  /-- The take of a read command changes the frame in progress (R152). -/
  | reads (g : Option Frame) (s : State) (is : ∃ params, ∃ x ∈ readFrames params, x.1 = c)
      (ready : s.link.awaitRise = false) (empty : ∀ f, g = some f → f.bits = []) :
      Move c s (s.updLink (fun l => { l with frame := g }))
  /-- READ RING STATUS has reported INDEX_ERROR (R146). -/
  | reports (s : State) : Move c s (s.updNotice (fun n => { n with indexError := false }))
  /-- One microsecond passes (R162). -/
  | ticks (s : State) (is : c = .timebaseIncrement) : Move c s { s with timebase := s.timebase + 1 }
  /-- SSEL has risen after a reset (R151). -/
  | rises (s : State) : Move c s (s.updLink (fun l => { l with awaitRise := false }))

/-- A chain of moves. -/
abbrev Moves (c : Instr) : State → State → Prop := Relation.ReflTransGen (Move c)

theorem Moves.one {c : Instr} {s t : State} (h : Move c s t) : Moves c s t := .single h

/-- What every move of a command keeps, its chain of moves keeps. -/
theorem Moves.keep {c : Instr} {P : State → Prop} (h : ∀ s t, Move c s t → P s → P t) {s t : State}
    (moves : Moves c s t) (hs : P s) : P t := by
  induction moves with
  | refl => exact hs
  | tail _ move ih => exact h _ _ move ih

/-! ### The clearing of a soft reset -/

theorem moves_softClear (c : Instr) (s : State) : Moves c s (softClear s) := by
  unfold softClear
  extract_lets cleared pointed unit posted
  have h1 : Move c s cleared :=
    .works (.forWindows _ works_clearWindow s) (.forWindows _ (fun w t => (local_clearWindow w t).eases) s)
  clear_value cleared
  have h2 : Move c cleared pointed :=
    .works (works_updCopier _ _) (local_updCopier_rest 0 cleared rfl rfl rfl).eases
  have h4 : Move c unit posted := .works (.post _ _) (Local.post 0 _ _).eases
  exact ((((Moves.one h1).tail h2).tail (.clears pointed)).tail h4).tail (.runs posted)

theorem moves_testReset (c : Instr) (s : State) : Moves c s (testReset s) := by
  unfold testReset
  split
  · exact moves_softClear c s
  · exact .refl

/-! ### Classification -/

/-- What every move of a classification may use: the list has room and no WAITING entry. -/
structure Roomy (m : Fin 16) (s : State) : Prop where
  room : s.responses[m].length < 16
  free : (s.responses[m].map Entry.id).Nodup → s.responses[m].countP Entry.isWaiting = 0

theorem Roomy.of_mayClassify {m : Fin 16} {s : State} (h : mayClassify s m = true) : Roomy m s := by
  simp only [mayClassify, Config.responseDepth, Bool.and_eq_true, decide_eq_true_eq] at h
  obtain ⟨none_waits, room⟩ := h
  refine ⟨room, fun _ => ?_⟩
  simpa [State.current, List.countP_eq_zero] using none_waits

theorem Roomy.works {m : Fin 16} {s t : State} (h : Roomy m s) (works : Works s t) : Roomy m t := by
  obtain ⟨room, free⟩ := h
  have names := works.entries m
  refine ⟨?_, fun nodup => ?_⟩
  · have := congrArg List.length names
    simp only [List.length_map] at this
    omega
  · have nodup' : (s.responses[m].map Entry.id).Nodup := map_id_of_name names ▸ nodup
    have fewer := works.waiting m nodup'
    have none_waits := free nodup'
    omega

theorem moves_refuseHead {m : Fin 16} {s : State} (h : Roomy m s) (r : Request) (w : Option (Fin 16))
    (reason : Reason) : Moves (.classification m) s (refuseHead m r w reason s) :=
  (Moves.one (.enters m r w _ _ s rfl h.room h.free)).tail (.works (.post _ _) (Local.post 0 _ _).eases)

theorem moves_enterWaiting {m : Fin 16} {s : State} (h : Roomy m s) (r : Request) (w : Fin 16) (wait : Wait)
    (pieces : List Piece) : Moves (.classification m) s (enterWaiting m r w wait pieces s) :=
  (Moves.one (.enters m r _ _ _ s rfl h.room h.free)).tail
    (.works (.updWindow _ w _ (fun _ => rfl)) (Local.updWindow _ w _ .rfl).eases)

theorem moves_enterPassthrough {m : Fin 16} {s : State} (h : Roomy m s) (r : Request) :
    Moves (.classification m) s (enterPassthrough m r s) :=
  Moves.one (.enters m r _ _ _ s rfl h.room h.free)

theorem moves_mapSlottedRead {m : Fin 16} {s : State} (h : Roomy m s) (w : Fin 16) (d : Definition) (u : SlotUnit)
    (r : Request) : Moves (.classification m) s (mapSlottedRead m w d u r s) := by
  have capture (pieces : List Piece) (t : State) : Move (.classification m) t (captureSlots w pieces t) :=
    .works (works_captureSlots ..) (local_captureSlots ..).eases
  unfold mapSlottedRead
  split
  · exact (moves_enterWaiting h ..).tail (capture ..)
  · next c _ =>
    have read := works_consumerRead w c (firstUnit d r) (lastUnit d r) s
    exact ((Moves.one (.works read (local_consumerRead ..).eases)).trans
      (moves_enterWaiting (h.works read) ..)).tail (capture ..)
  · exact (moves_enterWaiting h ..).tail (capture ..)

theorem moves_mapRollingRead {m : Fin 16} {s : State} (h : Roomy m s) (w : Fin 16) (d : Definition) (u : RollState)
    (r : Request) : Moves (.classification m) s (mapRollingRead m w d u r s) := by
  have capture (pieces : List Piece) (t : State) : Move (.classification m) t (captureReads w pieces t) :=
    .works (works_captureReads ..) (local_captureReads ..).eases
  unfold mapRollingRead
  split
  · exact moves_enterWaiting h ..
  · next c _ =>
    have read := works_consumerRead w c (firstUnit d r) (lastUnit d r) s
    exact ((Moves.one (.works read (local_consumerRead ..).eases)).trans
      (moves_enterWaiting (h.works read) ..)).tail (capture ..)
  · exact (moves_enterWaiting h ..).tail (capture ..)

theorem moves_windowRequest {m : Fin 16} {s : State} (h : Roomy m s) (w : Fin 16) (r : Request) :
    Moves (.classification m) s (windowRequest m w r s) := by
  unfold windowRequest
  split
  · exact moves_refuseHead h ..
  unfold mapWindowRequest
  split
  · exact .refl
  split
  · split
    · exact (moves_enterWaiting h ..).tail (.works (works_placeWrite ..) (local_placeWrite ..).eases)
    · exact moves_refuseHead h ..
  · split
    · exact moves_mapSlottedRead h ..
    · exact moves_mapRollingRead h ..
    · exact .refl

theorem moves_watchedWrite {m : Fin 16} {s : State} (h : Roomy m s) (r : Request) :
    Moves (.classification m) s (watchedWrite m r s) := by
  unfold watchedWrite reportWatched
  have told : Moves (.classification m) s
      (forWindows (fun w t => reportCommitWord w m s.nextId r t) (enterPassthrough m r s)) :=
    (moves_enterPassthrough h r).tail (.works (.forWindows _ (fun _ _ => works_reportCommitWord ..) _)
      (.forWindows _ (fun _ _ => (local_reportCommitWord ..).eases) _))
  generalize forWindows _ _ = t at told
  unfold reportConsumedIndex
  split
  · exact told
  split
  · exact told
  split
  · exact told
  split
  · exact told
  · next d defined _ _ b _ => exact told.tail (.stores d b t defined)

theorem moves_classify (m : Fin 16) (s : State) : Moves (.classification m) s (classify m s) := by
  unfold classify
  split
  · exact .refl
  next r _ _ =>
  have popped : Moves (.classification m) s (popIntake m s) := .one (.pops m s rfl)
  split
  · exact .refl
  next may =>
  have h : Roomy m (popIntake m s) := by
    obtain ⟨room, free⟩ := Roomy.of_mayClassify (m := m) (s := s) (by simpa using may)
    exact ⟨by simpa using room, by simpa using free⟩
  split
  · exact popped.trans (moves_refuseHead h ..)
  split
  · exact .refl
  unfold classifyHead
  split
  · exact popped.trans (moves_refuseHead h ..)
  · split
    · exact popped.trans (moves_watchedWrite h r)
    · exact popped.trans (moves_windowRequest h ..)
  · split
    · exact popped.trans (moves_watchedWrite h r)
    · exact popped.trans (moves_enterPassthrough h r)

/-! ### Issue -/

theorem name_issue (k : Nat) (p : Piece) (e : Entry) : (e.issue k p).name = e.name := by
  unfold Entry.issue
  extract_lets x
  split <;> rfl

theorem isWaiting_issue (k : Nat) (p : Piece) (e : Entry) (h : (e.issue k p).isWaiting = true) : e.isWaiting = true := by
  unfold Entry.issue at h
  extract_lets x at h
  split at h
  · cases h
  · exact h

theorem works_countIssue (w : Fin 16) (r : Request) (p : Piece) (s : State) : Works s (countIssue w r p s) := by
  unfold countIssue
  extract_lets t
  have counted : Works s t := .updWindow s w _ (fun _ => rfl)
  split
  · split
    · exact counted.trans ((works_issueToSlot ..).trans (works_markWritten ..))
    · exact counted.trans (works_issueToSlot ..)
  · exact counted

theorem local_countIssue (w : Fin 16) (r : Request) (p : Piece) (s : State) : Local w s (countIssue w r p s) := by
  unfold countIssue
  extract_lets t
  have counted : Local w s t := .updWindow s w _ .rfl
  split
  · split
    · exact counted.trans ((Local.updSlot _ w _ _).trans (.updSlot _ w _ _))
    · exact counted.trans (.updSlot _ w _ _)
  · exact counted

theorem moves_issuePiece (place : Fin 32) (m : Fin 16) (e : Entry) (k : Nat) (p : Piece) (s : State) :
    Moves .issueGrant s (issuePiece place m e k p s) := by
  unfold issuePiece
  extract_lets placed issued
  have to_issued : Moves .issueGrant s issued :=
    (Moves.one (.places place _ s rfl)).tail
      (.works (.updEntry placed m e.id _ (name_issue k p) (isWaiting_issue k p)) (Local.updEntry 0 placed m e.id _).eases)
  split
  · exact to_issued
  next w _ =>
  extract_lets counted
  have to_counted : Moves .issueGrant s counted :=
    to_issued.tail (.works (works_countIssue ..) (local_countIssue ..).eases)
  split
  · exact (to_counted.tail (.works (works_lowerWaiting ..) (local_lowerWaiting ..).eases)).trans (moves_testReset ..)
  · exact to_counted

/-- What the notice writer offers, in the terms of the ring (R141, R143, R144). -/
theorem noticeOffer_cases {s : State} {d : RingDef} {write : NoticeWrite} (h : noticeOffer s = some (d, write)) :
    s.notice.definition = some d ∧ (write = .writeBack 0 ∨ write = .writeBack s.notice.write ∨ write = .record) := by
  unfold noticeOffer at h
  split at h
  · cases h
  split at h
  · cases h
  split at h
  · next d' _ defined =>
    split at h
    · cases h; exact ⟨defined, .inl rfl⟩
    split at h
    · cases h; exact ⟨defined, .inr (.inl rfl)⟩
    split at h
    · cases h; exact ⟨defined, .inr (.inr rfl)⟩
    · cases h
  · cases h

theorem moves_issueNotice (place : Fin 32) {d : RingDef} {write : NoticeWrite} {s : State}
    (defined : s.notice.definition = some d)
    (offered : write = .writeBack 0 ∨ write = .writeBack s.notice.write ∨ write = .record) :
    Moves .issueGrant s (issueNotice place d write s) := by
  unfold issueNotice
  split
  · next v =>
    refine (Moves.one (.places place _ s rfl)).tail (.announces d v _ defined ?_)
    rcases offered with h | h | h
    · exact .inl (NoticeWrite.writeBack.inj h)
    · exact .inr (NoticeWrite.writeBack.inj h)
    · cases h
  · split
    · exact .refl
    · next x rest pending =>
      exact (Moves.one (.places place _ s rfl)).tail (.publishes d x rest _ defined pending)

theorem moves_issueBurst (place : Fin 32) (offer : Offer) (s : State) :
    Moves .issueGrant s (issueBurst place offer s) := by
  unfold issueBurst
  split
  · exact .refl
  next y hy =>
  split
  · exact .refl
  extract_lets t
  have placed : Moves .issueGrant s t := by
    unfold t
    cases offer with
    | write i chunk data =>
      exact (Moves.one (.places place _ s rfl)).tail
        (.works (works_updCopier _ _) (local_updCopier_rest 0 _ rfl rfl rfl).eases)
    | read i chunk =>
      refine (Moves.one (.places place _ s rfl)).tail (.works (works_updCopier _ _) ⟨?_, fun _ => .rfl⟩)
      refine copierStopped_of_less rfl id id (fun dropped z hz => ?_)
      obtain rfl := Option.some.inj hz
      exact dropped y hy
  exact placed.tail (.works (works_updSlot ..) (Local.updSlot ..).eases)

theorem moves_grant (s : State) : Moves .issueGrant s (grant s) := by
  unfold grant
  split
  · next place c _ _ =>
    refine (Moves.one (.grants c s rfl)).trans ?_
    unfold issueFor
    split
    · split
      · exact .refl
      · split
        · exact .refl
        · exact moves_issuePiece ..
    · split
      · exact .refl
      · next offer =>
        obtain ⟨defined, offered⟩ := noticeOffer_cases offer
        exact moves_issueNotice _ defined offered
    · split
      · exact .refl
      · exact moves_issueBurst ..
  · exact .refl

/-! ### Completions -/

theorem works_countCompletion (w : Fin 16) (p : Piece) (s : State) : Works s (countCompletion w p s) := by
  unfold countCompletion
  extract_lets t
  have counted : Works s t := .updWindow s w _ (fun _ => rfl)
  split
  · exact counted.trans (works_lowerSlotInFlight ..)
  · exact counted.trans (works_lowerRead ..)
  · exact counted

theorem local_countCompletion (w : Fin 16) (p : Piece) (s : State) : Local w s (countCompletion w p s) := by
  unfold countCompletion
  extract_lets t
  have counted : Local w s t := .updWindow s w _ .rfl
  split
  · exact counted.trans (local_lowerSlotInFlight ..)
  · exact counted.trans (local_lowerRead ..)
  · exact counted

theorem works_finishRequest (m : Fin 16) (e : Entry) (s : State) : Works s (finishRequest m e s) := by
  unfold finishRequest
  split
  · exact .updEntry s m e.id _ (fun _ => rfl) (fun _ h => by simp [isWaiting_settle] at h)
  · extract_lets t
    have closed : Works s t := works_closingCommit ..
    split
    · exact closed.trans (works_lowerDrain ..)
    · exact closed

theorem local_finishRequest {m w : Fin 16} {e : Entry} (h : ∀ v, e.window = some v → v = w) (s : State) :
    Local w s (finishRequest m e s) := by
  unfold finishRequest
  split
  · exact .updEntry ..
  · next v hv =>
    obtain rfl := h v hv
    extract_lets t
    have closed : Local v s t := local_closingCommit ..
    split
    · exact closed.trans (local_lowerDrain ..)
    · exact closed

theorem works_pieceCompleted (m : Fin 16) (e : Entry) (k : Nat) (p : Piece) (status : MemStatus) (s : State) :
    Works s (pieceCompleted m e k p status s) := by
  unfold pieceCompleted
  extract_lets e' marked counted finished
  have hmarked : Works s marked := .updEntry s m _ _ (fun _ => rfl) (fun _ h => h)
  have hcounted : Works marked counted := by
    unfold counted
    split
    · exact .refl _
    · split
      · exact (works_countCompletion ..).trans (.post ..)
      · exact works_countCompletion ..
  have hfinished : Works counted finished := by
    unfold finished
    split
    · exact works_finishRequest ..
    · exact .refl _
  refine (hmarked.trans hcounted).trans (hfinished.trans ?_)
  split
  · exact .refl _
  · split
    · exact works_faultReport ..
    · exact .refl _

theorem local_pieceCompleted {m w : Fin 16} {e : Entry} (h : ∀ v, e.window = some v → v = w) (k : Nat) (p : Piece)
    (status : MemStatus) (s : State) : Local w s (pieceCompleted m e k p status s) := by
  unfold pieceCompleted
  extract_lets e' marked counted finished
  have hmarked : Local w s marked := .updEntry ..
  have hcounted : Local w marked counted := by
    unfold counted
    split
    · exact .refl ..
    · next v hv =>
      obtain rfl := h v hv
      split
      · exact (local_countCompletion ..).trans (.post ..)
      · exact local_countCompletion ..
  have hfinished : Local w counted finished := by
    unfold finished
    split
    · exact local_finishRequest (e := e') h _
    · exact .refl ..
  refine (hmarked.trans hcounted).trans (hfinished.trans ?_)
  split
  · exact .refl ..
  · next v hv =>
    obtain rfl := h v hv
    split
    · exact local_faultReport ..
    · exact .refl ..

theorem moves_completePiece (c : Instr) (tag : Fin 32) (status : MemStatus) (data : List Dword) (s : State) :
    Moves c s (completePiece tag status data s) := by
  unfold completePiece
  split
  · next m id k _ _ _ _ _ =>
    extract_lets t
    have released : Moves c s t := .one (.releases tag s)
    split
    · exact released
    next e _ =>
    split
    · exact released
    next p _ =>
    have only : ∀ v, e.window = some v → v = e.window.getD 0 := fun v hv => by simp [hv]
    have eases := (local_pieceCompleted (m := m) only k (p.complete e.request.kind status data) status t).eases
    exact (released.tail (.works (works_pieceCompleted ..) eases)).trans (moves_testReset ..)
  · exact .refl

theorem moves_completeBurst (c : Instr) (tag : Fin 32) (status : MemStatus) (data : List Dword) (s : State) :
    Moves c s (completeBurst tag status data s) := by
  unfold completeBurst
  split
  · extract_lets t
    have released : Moves c s t := .one (.releases tag s)
    split
    · exact (released.tail (.works (works_burstCompleted ..) (local_burstCompleted ..).eases)).trans
        (moves_testReset ..)
    · exact released
  · exact .refl

theorem moves_completeNotice (c : Instr) (tag : Fin 32) {f : NoticeInFlight} (status : MemStatus) {s : State}
    (flying : s.notice.inFlight = some f) : Moves c s (completeNotice tag f status s) :=
  ((Moves.one (.releases tag s)).tail (.completes f status _ flying)).trans (moves_testReset ..)

theorem moves_completeRecord (c : Instr) (tag : Fin 32) (status : MemStatus) (s : State) :
    Moves c s (completeRecord tag status s) := by
  unfold completeRecord
  split
  · next flying =>
    split
    · exact moves_completeNotice c tag status flying
    · exact .refl
  · exact .refl

theorem moves_completeWriteBack (c : Instr) (tag : Fin 32) (status : MemStatus) (s : State) :
    Moves c s (completeWriteBack tag status s) := by
  unfold completeWriteBack
  split
  · next flying =>
    split
    · exact .refl
    · exact moves_completeNotice c tag status flying
  · exact .refl

/-! ### Timers and frame lines -/

theorem moves_expireHoldoff (c : Instr) (s : State) : Moves c s (expireHoldoff s) := by
  unfold expireHoldoff
  split
  · split
    · exact .one (.holds .expired s)
    · exact .refl
  · exact .refl

theorem eases_frameLine (c : Fin 8) (s : State) : Eases s (frameLine c s) := by
  unfold frameLine
  split
  · exact .refl s
  split
  · refine .forWindows _ (fun w t => ?_) s
    split
    · exact (local_frameStart ..).eases
    · exact .refl t
  · exact .refl s

theorem local_answerCurrent (m : Fin 16) (reason : Reason) (s : State) :
    ∃ w, Local w s (answerWaiting m reason s) := by
  refine ⟨((s.current m).bind Entry.window).getD 0, local_answerWaiting reason (fun e v he hv => ?_)⟩
  simp [he, hv]

theorem eases_expireSlotWait (m : Fin 16) (s : State) : Eases s (expireSlotWait m s) := by
  unfold expireSlotWait
  split
  · exact .refl s
  split
  · exact .refl s
  split
  · exact .refl s
  split
  · exact .refl s
  next w _ =>
  split
  · exact .refl s
  split
  · exact (local_answerCurrent ..).choose_spec.eases
  · exact ((local_stopTimer w m s).trans (local_reclaimSlot w _)).eases

theorem eases_expireVisibilityWait (m : Fin 16) (s : State) : Eases s (expireVisibilityWait m s) := by
  unfold expireVisibilityWait
  split
  · exact .refl s
  split
  · exact .refl s
  split
  · exact .refl s
  split
  · exact .refl s
  next w _ =>
  split
  · exact .refl s
  split
  · exact (local_answerCurrent ..).choose_spec.eases
  · exact ((local_stopTimer w m s).trans (local_reclaimTarget w _)).eases

theorem local_expireIdle (w : Fin 16) (c : Fin 8) (s : State) : Local w s (expireIdle w c s) := by
  unfold expireIdle
  split
  · exact local_idleRelease ..
  · exact .refl w s

/-! ### The link's commands -/

theorem moves_takeWrite {c : Instr} (is : configures c = true) (code : Byte) (ok : Bool) {owner : State → Answer}
    {s : State} (h : ∀ t, owner s = .ok t → Moves c s t) : Moves c s (takeWrite code ok owner s) := by
  rcases takeWrite_cases code ok owner s with e | ⟨_, _, -, e⟩ | ⟨t, ht, e⟩ <;> rw [e]
  · exact .one (.records _ _ _ s is)
  · exact (h t ht).tail (.records _ _ _ t is)

theorem isRead_of_mem (params : List Byte) (x : Instr × Byte × Nat) (h : x ∈ readFrames params) :
    ∃ params, ∃ x' ∈ readFrames params, x'.1 = x.1 := ⟨params, x, h, rfl⟩

theorem moves_takeRead {c : Instr} (is : ∃ params, ∃ x ∈ readFrames params, x.1 = c) (code : Byte) (selectors : Nat)
    (params : List Byte) (capture : State → List Byte) (s : State) :
    Moves c s (takeRead code selectors params capture s) := by
  unfold takeRead
  split
  · exact .refl
  next awake =>
  have ready : s.link.awaitRise = false := by simpa using awake
  split
  · exact .one (.reads none s is ready (fun _ h => nomatch h))
  · exact .one (.reads _ s is ready (fun f h => by rw [← Option.some.inj h]))

theorem moves_ownerDefineWindow {c : Instr} (is : configures c = true) {frame : List Byte} {s t : State}
    (h : ownerDefineWindow frame s = .ok t) : Moves c s t := by
  obtain ⟨w, h⟩ := withWindow_ok h
  split at h
  · cases h
  split at h
  · cases h
  split at h
  · cases h
  · next fits =>
    obtain rfl := Except.ok.inj h
    exact .one (.defines w _ s is fits)

theorem moves_ownerSetCommitWord {c : Instr} (is : configures c = true) {frame : List Byte} {s t : State}
    (h : ownerSetCommitWord frame s = .ok t) : Moves c s t := by
  obtain ⟨w, h⟩ := withWindow_ok h
  split at h
  · next d state definition =>
    split at h
    · obtain rfl := Except.ok.inj h
      exact .one (.words w d none s is state definition (fun _ h => nomatch h))
    split at h
    · cases h
    · next a _ passed =>
      obtain rfl := Except.ok.inj h
      refine .one (.words w d (some a) s is state definition (fun x hx => ?_))
      obtain rfl := Option.some.inj hx
      exact Bool.eq_false_iff.mpr (fun overlaps => passed (.inr overlaps))
  · cases h

theorem moves_ownerUndefineWindow {c : Instr} (is : configures c = true) {frame : List Byte} {s t : State}
    (h : ownerUndefineWindow frame s = .ok t) : Moves c s t := by
  obtain ⟨w, h⟩ := withWindow_ok h
  split at h
  · obtain rfl := Except.ok.inj h; exact .one (.undefines w s is)
  · cases h

theorem works_enableWindow (w : Fin 16) (d : Definition) (front : Fin 4) (s : State) :
    Works s (enableWindow w d front s) := by
  unfold enableWindow
  extract_lets a b c
  have ha : Works s a := .updWindow s w _ (fun _ => rfl)
  have hb : Works a b := .updCommits a w _ (fun _ => wf_reset)
  have hc : Works b c := .of_tables rfl
  refine ((ha.trans hb).trans hc).trans ?_
  split
  · exact Works.trans (.of_tables rfl) (works_allocate w _)
  · exact .of_tables rfl

theorem moves_ownerEnableWindow {c : Instr} {frame : List Byte} {s t : State}
    (h : ownerEnableWindow frame s = .ok t) : Moves c s t := by
  obtain ⟨w, h⟩ := withWindow_ok h
  split at h
  · next defined _ =>
    split at h
    · cases h
    · obtain rfl := Except.ok.inj h
      exact .one (.works (works_enableWindow ..)
        (local_enableWindow _ _ (ne_of_eq_of_ne defined (by decide))).eases)
  · cases h

theorem moves_ownerDrainWindow {c : Instr} {frame : List Byte} {s t : State}
    (h : ownerDrainWindow frame s = .ok t) : Moves c s t := by
  obtain ⟨w, h⟩ := withWindow_ok h
  split at h
  · next state =>
    have defined : s.windows[w].state ≠ .undefined := by rcases state with h | h <;> rw [h] <;> decide
    obtain rfl := Except.ok.inj h
    exact .one (.works (works_drainWindow ..) (local_drainWindow defined).eases)
  · cases h

theorem moves_ownerResumeWindow {c : Instr} {frame : List Byte} {s t : State}
    (h : ownerResumeWindow frame s = .ok t) : Moves c s t := by
  obtain ⟨w, h⟩ := withWindow_ok h
  split at h
  · next halted =>
    obtain rfl := Except.ok.inj h
    refine .one (.works (Works.trans (t := s.updWindow w _) (.updWindow s w _ ?_) (works_allocate w _))
      ((Local.updWindow s w _ ?_).trans (local_allocate w _)).eases)
    · exact fun _ => rfl
    · rw [halted]; simp
  · cases h

theorem moves_ownerSetStallLimit {c : Instr} (is : configures c = true) {frame : List Byte} {s t : State}
    (h : ownerSetStallLimit frame s = .ok t) : Moves c s t := by
  obtain ⟨w, h⟩ := withWindow_ok h
  extract_lets x at h
  split at h
  · split at h
    · cases h
    · obtain rfl := Except.ok.inj h; exact .one (.limits w _ s is)
  · cases h

theorem moves_arrive (c : Instr) (w : Fin 16) (x : Commit) (s : State) : Moves c s (arrive w x s) :=
  .one (.works (works_arrive ..) (local_arrive ..).eases)

theorem moves_ownerPublish {c : Instr} {frame : List Byte} {s t : State} (h : ownerPublish frame s = .ok t) :
    Moves c s t := by
  obtain ⟨w, h⟩ := withWindow_ok h
  split at h
  · obtain rfl := Except.ok.inj h; exact moves_arrive ..
  · cases h

theorem moves_ownerAbandon {c : Instr} {frame : List Byte} {s t : State} (h : ownerAbandon frame s = .ok t) :
    Moves c s t := by
  obtain ⟨w, h⟩ := withWindow_ok h
  split at h
  · cases h
  split at h
  · obtain rfl := Except.ok.inj h; exact moves_arrive ..
  · cases h

theorem moves_ownerBindConsumer {c : Instr} (is : configures c = true) {frame : List Byte} {s t : State}
    (h : ownerBindConsumer frame s = .ok t) : Moves c s t := by
  unfold ownerBindConsumer at h
  split at h
  · cases h
  split at h
  · cases h
  split at h
  · cases h
  split at h
  · cases h
  split at h
  · cases h
  · obtain rfl := Except.ok.inj h; exact .one (.binds _ s is)

theorem moves_ownerUnbindConsumer {c : Instr} (is : configures c = true) {frame : List Byte} {s t : State}
    (h : ownerUnbindConsumer frame s = .ok t) : Moves c s t := by
  unfold ownerUnbindConsumer at h
  split at h
  · cases h
  split at h
  · cases h
  · obtain rfl := Except.ok.inj h; exact .one (.binds _ s is)

/-- The first of some checks that fails: none, where each of them holds. -/
theorem firstFailing_none {checks : List (Bool × Nat)} : firstFailing checks = none ↔ ∀ x ∈ checks, x.1 = true := by
  simp [firstFailing]

theorem moves_ownerSetNoticeRing {c : Instr} (is : configures c = true) {frame : List Byte} {s t : State}
    (h : ownerSetNoticeRing frame s = .ok t) : Moves c s t := by
  unfold ownerSetNoticeRing at h
  split at h
  · obtain rfl := Except.ok.inj h
    exact .one (.rings none s is (fun _ h => nomatch h))
  split at h
  · cases h
  next checked =>
  split at h
  · cases h
  next apart =>
  obtain rfl := Except.ok.inj h
  refine .one (.rings (some (ringOf frame)) s is (fun x hx => ?_))
  obtain rfl := Option.some.inj hx
  have size := firstFailing_none.mp checked (ringSizes.contains (ringOf frame).entries, 2) (by simp [ringFieldChecks])
  exact ⟨by simpa using size, apart⟩

theorem moves_ownerFlushNotices {c : Instr} (is : configures c = true) {s t : State}
    (h : ownerFlushNotices s = .ok t) : Moves c s t := by
  unfold ownerFlushNotices at h
  split at h
  · obtain rfl := Except.ok.inj h; exact .one (.flushes s is)
  · cases h

/-! ### SOFT RESET -/

theorem endDropped_resetting {s : State} (resetting : s.link.part = .resetting) :
    (endDropped s).copier.urgent = s.copier.urgent ∧ (endDropped s).copier.jobs = s.copier.jobs ∧
    ∀ y, (endDropped s).copier.copy = some y → s.copier.copy = some y := by
  unfold endDropped
  split
  · exact ⟨rfl, rfl, fun _ h => h⟩
  split
  · exact ⟨rfl, rfl, fun _ h => h⟩
  split
  · exact ⟨rfl, rfl, fun _ h => h⟩
  extract_lets t
  have kept : t.link.part = .resetting ∧ t.copier = s.copier := by
    unfold t
    split
    · split <;> exact ⟨resetting, rfl⟩
    · exact ⟨resetting, rfl⟩
  rw [kickCopier_resetting (s := t.updCopier Copier.endCopy) kept.1]
  exact ⟨by simp [Copier.endCopy, kept.2], by simp [Copier.endCopy, kept.2], fun _ h => nomatch h⟩

/-- What the dropping of one window's jobs leaves of a copier while the part is RESETTING (R84, R88). -/
theorem dropJobs_resetting {w : Fin 16} {s : State} (resetting : s.link.part = .resetting) :
    (dropJobs w s).copier.urgent = s.copier.urgent.filter (fun u => decide (u.window ≠ w)) ∧
    (dropJobs w s).copier.jobs = upd s.copier.jobs w (fun _ => none) ∧
    ∀ y, (dropJobs w s).copier.copy = some y →
      ∃ z, s.copier.copy = some z ∧ (if z.window = w then { z with dropped := true } else z) = y := by
  obtain ⟨urgent, jobs, copy⟩ := endDropped_resetting (s := dropMarks w s) resetting
  refine ⟨urgent.trans (dropMarks_urgent ..), jobs.trans (dropMarks_jobs ..), fun y hy => ?_⟩
  exact Option.map_eq_some_iff.mp (dropMarks_copy w s ▸ copy y hy)

/-- The copier has no work, that for the windows of a list apart. -/
def StoppedBut (windows : List (Fin 16)) (s : State) : Prop :=
  (∀ u ∈ s.copier.urgent, u.window ∈ windows) ∧ (∀ w : Fin 16, w ∉ windows → s.copier.jobs[w] = none) ∧
  ∀ y, s.copier.copy = some y → y.dropped = true ∨ y.window ∈ windows

theorem stoppedBut_dropJobs {w : Fin 16} {windows : List (Fin 16)} {s : State} (resetting : s.link.part = .resetting)
    (h : StoppedBut (w :: windows) s) : StoppedBut windows (dropJobs w s) := by
  obtain ⟨urgent, jobs, copy⟩ := dropJobs_resetting (w := w) resetting
  obtain ⟨hu, hj, hc⟩ := h
  refine ⟨fun u hmem => ?_, fun v hv => ?_, fun y hy => ?_⟩
  · rw [urgent] at hmem
    obtain ⟨mem, ne⟩ := List.mem_filter.mp hmem
    exact (List.mem_cons.mp (hu u mem)).resolve_left (by simpa using ne)
  · rw [jobs, upd_get]
    split
    · rfl
    · next ne => exact hj v (fun mem => (List.mem_cons.mp mem).elim (fun e => ne e.symm) hv)
  · obtain ⟨z, before, rfl⟩ := copy y hy
    split
    · exact .inl rfl
    · next ne => exact (hc z before).imp_right (fun mem => (List.mem_cons.mp mem).resolve_left ne)

theorem mem_windowNumbers (w : Fin 16) : w ∈ windowNumbers := by
  revert w
  decide

/-- With the jobs of every window dropped, the copier of a RESETTING part has stopped (R88, R163). -/
theorem stopped_dropAll {s : State} (resetting : s.link.part = .resetting) : (forWindows dropJobs s).copierStopped := by
  have drop : ∀ (windows : List (Fin 16)) (t : State), t.link.part = .resetting → StoppedBut windows t →
      StoppedBut [] (windows.foldl (fun t w => dropJobs w t) t) := by
    intro windows
    induction windows with
    | nil => exact fun _ _ h => h
    | cons w windows ih =>
      exact fun t ht h => ih _ ((congrArg Link.part (works_dropJobs w t).link).trans ht) (stoppedBut_dropJobs ht h)
  obtain ⟨urgent, jobs, copy⟩ := drop windowNumbers s resetting
    ⟨fun u _ => mem_windowNumbers _, fun w hw => absurd (mem_windowNumbers w) hw, fun y _ => .inr (mem_windowNumbers _)⟩
  refine fun _ => ⟨List.eq_nil_iff_forall_not_mem.mpr (fun u hu => nomatch urgent u hu), fun w => jobs w (by simp), ?_⟩
  exact fun y hy => (copy y hy).resolve_right (by simp)

theorem eases_answerAll (test : Entry → Bool) (reason : Reason) (s : State) : Eases s (answerAll test reason s) := by
  have one : ∀ m t, Eases t (match t.current m with
      | none => t
      | some e => if test e then answerWaiting m reason t else t) := fun m t => by
    split
    · exact .refl t
    · split
      · exact (local_answerCurrent ..).choose_spec.eases
      · exact .refl t
  unfold answerAll forMasters
  generalize masters = ms
  induction ms generalizing s with
  | nil => exact .refl s
  | cons m ms ih => exact (one m s).trans (ih _)

theorem moves_takeSoftReset (params : List Byte) (s : State) : Moves (.softReset params) s (takeSoftReset s) := by
  unfold takeSoftReset
  extract_lets resetting discarded unfenced slotted rolling dropped held
  have to_discarded : Works resetting discarded := .forWindows _ (fun w t => works_discardAll w .reset t) _
  have to_unfenced : Works discarded unfenced := works_answerAll ..
  have to_slotted : Works unfenced slotted := .forWindows _ (works_resetWaits true) _
  have to_rolling : Works slotted rolling := .forWindows _ (works_resetWaits false) _
  have to_dropped : Works rolling dropped := .forWindows _ works_dropJobs _
  have to_rolling' := to_discarded.trans (to_unfenced.trans (to_slotted.trans to_rolling))
  have part : rolling.link.part = .resetting := congrArg Link.part to_rolling'.link
  have stopped : dropped.copierStopped := stopped_dropAll part
  have e1 : Eases resetting discarded := .forWindows _ (fun w t => (local_discardAll w .reset t).eases) _
  have e2 : Eases discarded unfenced := eases_answerAll ..
  have e3 : Eases unfenced slotted := .forWindows _ (fun w t => (local_resetWaits true w t).eases) _
  have e4 : Eases slotted rolling := .forWindows _ (fun w t => (local_resetWaits false w t).eases) _
  have e5 : Eases rolling dropped := .forWindows _ (fun w t => (local_dropJobs w w t).eases) _
  have suspended : Moves (.softReset params) s dropped :=
    .one (.suspends params s rfl (to_rolling'.trans to_dropped) stopped
      (e1.trans (e2.trans (e3.trans (e4.trans e5)))).undefined)
  clear_value dropped
  have unwatched : Works held (stopIdleTimers held) := .of_tables rfl
  exact ((suspended.tail (.holds .stopped dropped)).tail (.works unwatched ⟨id, fun _ => .rfl⟩)).trans (moves_testReset ..)

/-! ### Every command -/

/-- Every command answers a next state. -/
theorem exec_total (c : Instr) (s : State) : ∃ t, exec c s = .next t := by
  cases c <;> exact ⟨_, rfl⟩

/-- A command is a chain of moves. -/
theorem exec_moves {c : Instr} {s t : State} (h : exec c s = .next t) : Moves c s t := by
  cases c with
  | requestArrival m r => cases h; exact .one (.arrives m r s rfl)
  | classification m => cases h; exact moves_classify m s
  | issueGrant => cases h; exact moves_grant s
  | pieceCompletion tag status data => cases h; exact moves_completePiece ..
  | copierBurstCompletion tag status data => cases h; exact moves_completeBurst ..
  | recordWriteCompletion tag status => cases h; exact moves_completeRecord ..
  | writeBackCompletion tag status => cases h; exact moves_completeWriteBack ..
  | responseSent m => cases h; exact .one (.sends m s rfl)
  | hardReset b => cases h; exact .one (.resets b s rfl)
  | frameLineEvent line => cases h; exact .one (.works (works_frameLine ..) (eases_frameLine line s))
  | slotWaitTimerExpiry m => cases h; exact .one (.works (works_expireSlotWait ..) (eases_expireSlotWait m s))
  | visibilityWaitTimerExpiry m =>
    cases h; exact .one (.works (works_expireVisibilityWait ..) (eases_expireVisibilityWait m s))
  | idleExpiry w c => cases h; exact .one (.works (works_expireIdle ..) (local_expireIdle ..).eases)
  | holdoffExpiry => cases h; exact moves_expireHoldoff ..
  | commitTake w => cases h; exact .one (.works (works_takeCommit ..) (local_takeCommit ..).eases)
  | drainCompletion w => cases h; exact .one (.works (works_testDrain ..) (local_testDrain ..).eases)
  | softResetClearing => cases h; exact moves_testReset ..
  | defineWindow params => cases h; exact moves_takeWrite rfl _ _ (fun _ => moves_ownerDefineWindow rfl)
  | setCommitWord params => cases h; exact moves_takeWrite rfl _ _ (fun _ => moves_ownerSetCommitWord rfl)
  | undefineWindow params => cases h; exact moves_takeWrite rfl _ _ (fun _ => moves_ownerUndefineWindow rfl)
  | enableWindow params => cases h; exact moves_takeWrite rfl _ _ (fun _ => moves_ownerEnableWindow)
  | drainWindow params => cases h; exact moves_takeWrite rfl _ _ (fun _ => moves_ownerDrainWindow)
  | resumeWindow params => cases h; exact moves_takeWrite rfl _ _ (fun _ => moves_ownerResumeWindow)
  | setStallLimit params => cases h; exact moves_takeWrite rfl _ _ (fun _ => moves_ownerSetStallLimit rfl)
  | publish params => cases h; exact moves_takeWrite rfl _ _ (fun _ => moves_ownerPublish)
  | abandon params => cases h; exact moves_takeWrite rfl _ _ (fun _ => moves_ownerAbandon)
  | bindConsumer params => cases h; exact moves_takeWrite rfl _ _ (fun _ => moves_ownerBindConsumer rfl)
  | unbindConsumer params => cases h; exact moves_takeWrite rfl _ _ (fun _ => moves_ownerUnbindConsumer rfl)
  | setNoticeRing params => cases h; exact moves_takeWrite rfl _ _ (fun _ => moves_ownerSetNoticeRing rfl)
  | setNoticeMask params =>
    cases h
    refine moves_takeWrite rfl _ _ (fun t ht => ?_)
    obtain rfl := Except.ok.inj ht
    exact .one (.masks _ s rfl)
  | flushNotices params => cases h; exact moves_takeWrite rfl _ _ (fun _ => moves_ownerFlushNotices rfl)
  | softReset params =>
    cases h
    refine moves_takeWrite rfl _ _ (fun t ht => ?_)
    obtain rfl := Except.ok.inj ht
    exact moves_takeSoftReset params s
  | unknownCommandFrame code params =>
    cases h
    split
    · exact .refl
    · refine moves_takeWrite rfl _ _ (fun t ht => ?_)
      obtain rfl := Except.ok.inj ht
      exact .refl
  | readWindowDefinition params =>
    cases h; exact moves_takeRead (isRead_of_mem params (.readWindowDefinition params, 0x81, 1) (by simp [readFrames])) ..
  | readWindowStatus params =>
    cases h; exact moves_takeRead (isRead_of_mem params (.readWindowStatus params, 0x82, 1) (by simp [readFrames])) ..
  | readViewStatus params =>
    cases h; exact moves_takeRead (isRead_of_mem params (.readViewStatus params, 0x83, 2) (by simp [readFrames])) ..
  | readConsumer params =>
    cases h; exact moves_takeRead (isRead_of_mem params (.readConsumer params, 0x84, 1) (by simp [readFrames])) ..
  | readRingStatus params =>
    obtain rfl := Host.Outcome.next.inj h
    split
    · exact .refl
    · exact (moves_takeRead (isRead_of_mem params (.readRingStatus params, 0x85, 0) (by simp [readFrames])) ..).tail (.reports _)
  | readPartStatus params =>
    cases h; exact moves_takeRead (isRead_of_mem params (.readPartStatus params, 0x86, 0) (by simp [readFrames])) ..
  | readResult params =>
    cases h; exact moves_takeRead (isRead_of_mem params (.readResult params, 0x87, 0) (by simp [readFrames])) ..
  | timebaseIncrement => cases h; exact .one (.ticks s rfl)
  | sselRiseAfterReset => cases h; exact .one (.rises s)

end Sys2Proof.Machine
end

section
/-! SUPPORT. The lists, queues and counts of the part stay within their bounds, and a stopped copier stays stopped: each
move of a command keeps them, and so does each step. -/

namespace Sys2Proof.Machine

/-! ### Steps -/

/-- What an edge on the link's pins does: it changes the frame in progress, or after such a change a command is carried
out. -/
theorem takeEdge_frame {e : LinkEdge} {s t : State} (h : takeEdge e s = .next t) :
    ∃ g : Option Frame, t = s.updLink (fun l => { l with frame := g }) ∨
      ∃ c, exec c (s.updLink (fun l => { l with frame := g })) = .next t := by
  cases e with
  | sselFall =>
    simp only [takeEdge, sselFalls] at h
    split at h <;> cases h
    · exact ⟨s.link.frame, .inl rfl⟩
    · exact ⟨some .start, .inl rfl⟩
  | sckFall => cases h; exact ⟨s.link.frame.map Frame.shiftOut, .inl rfl⟩
  | sckRise sdi =>
    simp only [takeEdge, sckRises] at h
    split at h
    · cases h; exact ⟨s.link.frame, .inl rfl⟩
    · next f _ =>
      refine ⟨some (f.shiftIn sdi), ?_⟩
      split at h
      · exact .inr ⟨_, h⟩
      · cases h; exact .inl rfl
  | sselRise =>
    simp only [takeEdge, sselRises] at h
    split at h
    · split at h
      · exact ⟨s.link.frame, .inr ⟨_, h⟩⟩
      · cases h; exact ⟨s.link.frame, .inl rfl⟩
    · split at h
      · exact ⟨s.link.frame, .inr ⟨_, h⟩⟩
      · cases h; exact ⟨none, .inl rfl⟩

/-- A step takes a command or an edge off its queue, changes the frame in progress or not, and carries out a command or
not. -/
theorem step_cases {s t : State} (h : step s = .next t) :
    ∃ (pending : List Instr) (edges : List LinkEdge) (g : Option Frame),
      (fun u => t = u ∨ ∃ c, exec c u = .next t)
        ({ s with pending := pending, edges := edges, link := { s.link with frame := g } } : State) := by
  unfold step at h
  split at h
  · next c rest _ => exact ⟨rest, s.edges, s.link.frame, .inr ⟨c, h⟩⟩
  · split at h
    · next e rest _ =>
      obtain ⟨g, done⟩ := takeEdge_frame h
      exact ⟨s.pending, rest, g, done⟩
    · cases h; exact ⟨s.pending, s.edges, s.link.frame, .inl rfl⟩

/-- What every move keeps, and a change of the two queues and of the frame in progress keeps, every step keeps. -/
theorem step_keeps {P : State → Prop}
    (queues : ∀ s pending edges g, P s →
      P { s with pending := pending, edges := edges, link := { s.link with frame := g } })
    (moves : ∀ c s t, Move c s t → P s → P t) {s t : State} (hs : P s) (h : step s = .next t) : P t := by
  obtain ⟨pending, edges, g, done⟩ := step_cases h
  have hu := queues s pending edges g hs
  rcases done with rfl | ⟨c, run⟩
  · exact hu
  · exact (exec_moves run).keep (moves c) hu

/-! ### The copier stays stopped (R88) -/

theorem copierStopped_congr {s t : State} (copier : t.copier = s.copier) (part : t.link.part = s.link.part)
    (h : s.copierStopped) : t.copierStopped := by
  simpa only [State.copierStopped, copier, part] using h

theorem Move.copierStopped {c : Instr} {s t : State} (move : Move c s t) (h : s.copierStopped) : t.copierStopped := by
  cases move with
  | works _ eases => exact eases.stopped h
  | arrives m r => exact copierStopped_congr (by unfold arriveRequest; split <;> rfl) (by unfold arriveRequest; split <;> rfl) h
  | pops m => exact copierStopped_congr (popIntake_copier m s) (by rw [popIntake_link]) h
  | sends m =>
    refine copierStopped_congr ?_ ?_ h <;> unfold sendResponse <;> split <;> first | rfl | (split <;> rfl)
  | resets b => exact copierStopped_of_running (show PartState.running ≠ .resetting by decide)
  | runs => exact copierStopped_of_running (by simp)
  | suspends params _ is works stopped => exact stopped
  | _ => exact h

/-! ### The bounds of the lists -/

/-- The bounds of the lists, queues and counts of the whole part. -/
structure State.Listed (s : State) : Prop where
  bounded : s.bounded
  one     : s.oneWaiting
  pending : s.notice.pending.length ≤ 32
  lost    : s.notice.lost ≤ 255

theorem NoticeUnit.take_bounds {n : NoticeUnit} (pending : n.pending.length ≤ 32) (lost : n.lost ≤ 255) (b : NoticeBody)
    (now : Micros) : (n.take b now).pending.length ≤ 32 ∧ (n.take b now).lost ≤ 255 := by
  unfold NoticeUnit.take
  split
  · exact ⟨pending, lost⟩
  split
  · exact ⟨pending, lost⟩
  split
  · exact ⟨pending, min_le_left ..⟩
  · next room =>
    refine ⟨?_, lost⟩
    simp only [List.length_append, List.length_singleton, Config.pendingDepth] at *
    omega

theorem Posts.bounds {now : Micros} {n n' : NoticeUnit} (posts : Posts now n n') (pending : n.pending.length ≤ 32)
    (lost : n.lost ≤ 255) : n'.pending.length ≤ 32 ∧ n'.lost ≤ 255 := by
  obtain ⟨bodies, rfl⟩ := posts
  induction bodies generalizing n with
  | nil => exact ⟨pending, lost⟩
  | cons b bodies ih =>
    obtain ⟨pending', lost'⟩ := NoticeUnit.take_bounds pending lost b now
    exact ih pending' lost'

theorem oneWaiting_of_names {s t : State} (nextId : t.nextId = s.nextId)
    (names : ∀ m : Fin 16, t.responses[m].map Entry.name = s.responses[m].map Entry.name)
    (waiting : ∀ m : Fin 16, (s.responses[m].map Entry.id).Nodup →
      t.responses[m].countP Entry.isWaiting ≤ s.responses[m].countP Entry.isWaiting) (h : s.oneWaiting) :
    t.oneWaiting := by
  intro m
  obtain ⟨nodup, drawn, one⟩ := h m
  have ids := map_id_of_name (names m)
  refine ⟨ids ▸ nodup, fun e he => ?_, (waiting m nodup).trans one⟩
  have : e.id ∈ s.responses[m].map Entry.id := ids ▸ List.mem_map_of_mem he
  obtain ⟨e', he', hid⟩ := List.mem_map.mp this
  rw [nextId, ← hid]
  exact drawn e' he'

/-- What `Works` says keeps the bounds of the lists. -/
theorem State.Listed.works {s t : State} (h : s.Listed) (works : Works s t) : t.Listed := by
  obtain ⟨⟨intake, room, commits, frame⟩, one, pending, lost⟩ := h
  obtain ⟨pending', lost'⟩ := works.notice.bounds pending lost
  refine ⟨⟨?_, fun m => ?_, fun w => works.commits w (commits w), ?_⟩,
    oneWaiting_of_names works.nextId works.entries works.waiting one, pending', lost'⟩
  · rw [works.intake]; exact intake
  · have same := congrArg List.length (works.entries m)
    simp only [List.length_map] at same
    exact same ▸ room m
  · rw [works.link]; exact frame

/-- The bounds speak of these parts of the state alone. -/
theorem State.Listed.congr {s t : State} (h : s.Listed) (intake : t.intake = s.intake) (responses : t.responses = s.responses)
    (nextId : t.nextId = s.nextId) (commits : t.commits = s.commits)
    (frame : ∀ f, t.link.frame = some f → f.bits.length < 8 ∧ t.link.awaitRise = false)
    (pending : t.notice.pending.length ≤ s.notice.pending.length) (lost : t.notice.lost ≤ 255) : t.Listed := by
  obtain ⟨⟨intake', room', commits', frame'⟩, one', pending', lost'⟩ := h
  refine ⟨⟨?_, ?_, ?_, frame⟩, ?_, pending.trans pending', lost⟩
  · rw [intake]; exact intake'
  · rw [responses]; exact room'
  · rw [commits]; exact commits'
  · rw [State.oneWaiting, responses, nextId]; exact one'

theorem State.Listed.frame {s : State} (h : s.Listed) :
    ∀ f, s.link.frame = some f → f.bits.length < 8 ∧ s.link.awaitRise = false := h.bounded.2.2.2

/-- A change of the notice unit that keeps its own bounds. -/
theorem State.Listed.notice {s : State} (h : s.Listed) {f : NoticeUnit → NoticeUnit}
    (pending : (f s.notice).pending.length ≤ s.notice.pending.length) (lost : (f s.notice).lost ≤ 255) :
    (s.updNotice f).Listed := State.Listed.congr h rfl rfl rfl rfl h.frame pending lost

theorem State.Listed.arrives {s : State} (h : s.Listed) (m : Fin 16) (r : Request) : (arriveRequest m r s).Listed := by
  unfold arriveRequest
  split
  · next room =>
    obtain ⟨⟨intake, rest⟩, one, pending, lost⟩ := h
    refine ⟨⟨upd_forall (p := fun q : List Request => q.length ≤ 8) intake ?_, rest⟩, one, pending, lost⟩
    simp only [List.length_append, List.length_singleton, Config.intakeDepth] at *
    omega
  · exact ⟨h.bounded, h.one, h.pending, h.lost⟩

theorem State.Listed.pops {s : State} (h : s.Listed) (m : Fin 16) : (popIntake m s).Listed := by
  obtain ⟨⟨intake, rest⟩, one, pending, lost⟩ := h
  rw [popIntake_eq]
  refine ⟨⟨?_, rest⟩, one, pending, lost⟩
  rw [popIntake_intake]
  refine fun j => upd_forall (p := fun q : List Request => q.length ≤ 8) (f := fun q => q.tail ++ s.onBus[m].take 1) intake ?_ j
  have := intake m
  simp only [List.length_append, List.length_tail, List.length_take]
  omega

theorem State.Listed.enters {s : State} (h : s.Listed) (m : Fin 16) (r : Request) (w : Option (Fin 16)) (stage : Stage)
    (pieces : List Piece) (space : s.responses[m].length < 16)
    (free : (s.responses[m].map Entry.id).Nodup → s.responses[m].countP Entry.isWaiting = 0) :
    (enter m r w stage pieces s).Listed := by
  obtain ⟨⟨intake, room, commits, frame⟩, one, pending, lost⟩ := h
  refine ⟨⟨intake, upd_forall (p := fun q : List Entry => q.length ≤ 16) room ?_, commits, frame⟩, fun j => ?_, pending, lost⟩
  · simp only [List.length_append, List.length_singleton]
    omega
  · obtain ⟨nodup, drawn, single⟩ := one j
    simp only [enter]
    rw [upd_get]
    split
    · next e =>
      subst e
      refine ⟨?_, fun e he => ?_, ?_⟩
      · rw [List.map_append, List.map_singleton, List.nodup_append]
        refine ⟨nodup, List.nodup_singleton _, fun a ha b hb => ?_⟩
        obtain ⟨e, he, rfl⟩ := List.mem_map.mp ha
        rw [List.mem_singleton.mp hb]
        exact (drawn e he).ne
      · rcases List.mem_append.mp he with he | he
        · exact (drawn e he).trans (Nat.lt_succ_self _)
        · rw [List.mem_singleton.mp he]
          exact Nat.lt_succ_self _
      · rw [List.countP_append, free nodup, Nat.zero_add]
        exact (List.countP_le_length).trans (by simp)
    · exact ⟨nodup, fun e he => (drawn e he).trans (Nat.lt_succ_self _), single⟩

theorem State.Listed.sends {s : State} (h : s.Listed) (m : Fin 16) : (sendResponse m s).Listed := by
  unfold sendResponse
  split
  · exact h
  next e rest he =>
  split
  · obtain ⟨⟨intake, room, commits, frame⟩, one, pending, lost⟩ := h
    have fewer : rest.Sublist s.responses[m] := he ▸ List.sublist_cons_self e rest
    refine ⟨⟨intake, upd_forall (p := fun q : List Entry => q.length ≤ 16) room (fewer.length_le.trans (room m)), commits, frame⟩,
      fun j => ?_, pending, lost⟩
    rw [upd_get]
    split
    · next hj =>
      subst hj
      obtain ⟨nodup, drawn, single⟩ := one m
      exact ⟨nodup.sublist (fewer.map _), fun e he => drawn e (fewer.subset he), (fewer.countP_le).trans single⟩
    · exact one j
  · exact h

theorem NoticeUnit.takeIndex_lists (n : NoticeUnit) (d : RingDef) (b : Beat) :
    (n.takeIndex d b).pending = n.pending ∧ (n.takeIndex d b).lost = n.lost := by
  unfold NoticeUnit.takeIndex
  split
  · exact ⟨rfl, rfl⟩
  split <;> exact ⟨rfl, rfl⟩

theorem NoticeUnit.complete_lists (n : NoticeUnit) (f : NoticeInFlight) (status : MemStatus) (now : Micros) :
    (n.complete f status now).pending.length ≤ n.pending.length ∧ (n.complete f status now).lost = n.lost := by
  unfold NoticeUnit.complete
  extract_lets ended
  split
  · exact ⟨le_rfl, rfl⟩
  split
  · exact ⟨Nat.zero_le _, rfl⟩
  · exact ⟨le_rfl, rfl⟩
  · exact ⟨le_rfl, rfl⟩
  · exact ⟨le_rfl, rfl⟩

theorem State.listed_reset : State.reset.Listed := by
  refine ⟨⟨?_, ?_, ?_, fun f h => nomatch h⟩, ?_, by decide, by decide⟩ <;> simp [State.reset, State.oneWaiting, wf_reset]

theorem State.Listed.resets (s : State) (b : Bool) : (hardReset b s).Listed := by
  obtain ⟨⟨intake, room, commits, _⟩, _, pending, lost⟩ := State.listed_reset
  refine ⟨⟨intake, room, commits, fun f h => nomatch h⟩, fun m => ?_, pending, lost⟩
  simp [hardReset, State.reset]

theorem Move.listed {c : Instr} {s t : State} (move : Move c s t) (h : s.Listed) : t.Listed := by
  cases move with
  | works works _ => exact State.Listed.works h works
  | arrives m r => exact State.Listed.arrives h m r
  | pops m => exact State.Listed.pops h m
  | enters m r w stage pieces _ _ room free => exact State.Listed.enters h m r w stage pieces room free
  | stores d b =>
    obtain ⟨pending, lost⟩ := s.notice.takeIndex_lists d b
    exact State.Listed.notice h (congrArg List.length pending).le (lost ▸ h.lost)
  | announces => exact State.Listed.notice h le_rfl h.lost
  | publishes d x rest _ _ pending => exact State.Listed.notice h (by simp [pending]) (Nat.zero_le _)
  | completes f status =>
    obtain ⟨pending, lost⟩ := s.notice.complete_lists f status s.timebase
    exact State.Listed.notice h pending (lost ▸ h.lost)
  | sends m => exact State.Listed.sends h m
  | resets b => exact State.Listed.resets s b
  | clears => exact State.Listed.notice h (Nat.zero_le _) (Nat.zero_le _)
  | suspends params _ _ works => 
    exact State.Listed.works (s := s.updLink (fun l => { l with part := .resetting }))
      ⟨h.bounded, h.one, h.pending, h.lost⟩ works
  | rings d => exact State.Listed.notice h (by cases d <;> simp [NoticeUnit.setRing, NoticeUnit.driveAttn]) (Nat.zero_le _)
  | records => exact State.Listed.congr h rfl rfl rfl rfl (fun f hf => nomatch hf) le_rfl h.lost
  | reads g _ _ ready empty =>
    exact State.Listed.congr h rfl rfl rfl rfl (fun f hf => ⟨by simp [empty f hf], ready⟩) le_rfl h.lost
  | rises => exact State.Listed.congr h rfl rfl rfl rfl (fun f hf => ⟨(h.frame f hf).1, rfl⟩) le_rfl h.lost
  | _ => exact ⟨h.bounded, h.one, h.pending, h.lost⟩

end Sys2Proof.Machine
end

section
/-! SUPPORT. The ring's indices stay in range, and the guarded regions stay apart: each move of a command keeps both. -/

namespace Sys2Proof.Machine

/-! ### The ring's indices (R136, R138) -/

theorem Posts.definition {now : Micros} {n n' : NoticeUnit} (posts : Posts now n n') :
    n'.definition = n.definition ∧ n'.mask = n.mask := by
  obtain ⟨bodies, rfl⟩ := posts
  induction bodies generalizing n with
  | nil => exact ⟨rfl, rfl⟩
  | cons b bodies ih =>
    rw [List.foldl_cons, ih.1, ih.2]
    rcases n.take_cases b now with h | h | h <;> rw [h] <;> exact ⟨rfl, rfl⟩

/-- The index invariant speaks of these fields alone. -/
theorem NoticeUnit.indexed.congr {n n' : NoticeUnit} (h : n.indexed) (ring : n'.ring = n.ring)
    (definition : n'.definition = n.definition) (write : n'.write = n.write) (consumed : n'.consumed = n.consumed)
    (writtenBack : n'.writtenBack = n.writtenBack) (inFlight : n'.inFlight = n.inFlight) : n'.indexed := by
  simpa only [NoticeUnit.indexed, ring, definition, write, consumed, writtenBack, inFlight] using h

theorem NoticeUnit.indexed.posts {now : Micros} {n n' : NoticeUnit} (h : n.indexed) (posts : Posts now n n') :
    n'.indexed := by
  have same := NoticeUnit.SameRing.of_posts posts
  exact h.congr same.ring posts.definition.1 same.write same.consumed same.writtenBack same.inFlight

theorem NoticeUnit.indexed.takeIndex {n : NoticeUnit} (h : n.indexed) {d : RingDef} (defined : n.definition = some d)
    (b : Beat) : (n.takeIndex d b).indexed := by
  have ignored : ({ n with indexError := true } : NoticeUnit).indexed := h
  unfold NoticeUnit.takeIndex
  split
  · exact ignored
  split
  · next accepted =>
    obtain ⟨ring, indices, flying⟩ := h
    obtain ⟨below, _⟩ := Bool.and_eq_true _ _ ▸ accepted
    refine ⟨ring, fun d' hd => ?_, flying⟩
    obtain rfl : d = d' := Option.some.inj (defined ▸ hd)
    obtain ⟨size, write, _, writtenBack⟩ := indices d hd
    exact ⟨size, write, of_decide_eq_true below, writtenBack⟩
  · exact ignored

theorem NoticeUnit.indexed.writeBack {n n' : NoticeUnit} (h : n.indexed) {d : RingDef} (defined : n.definition = some d)
    (ring : n'.ring = n.ring) (definition : n'.definition = n.definition) (write : n'.write = n.write)
    (consumed : n'.consumed = n.consumed) (writtenBack : n'.writtenBack = n.writtenBack)
    (inFlight : ∀ f, n'.inFlight = some f → ∀ v, f.write = .writeBack v → v < d.entries) : n'.indexed := by
  obtain ⟨ring', indices', _⟩ := h
  refine ⟨by rw [ring, definition]; exact ring', ?_, fun f hf _ => ⟨d, definition.trans defined, inFlight f hf⟩⟩
  rw [definition, write, consumed, writtenBack]
  exact indices'

theorem NoticeUnit.indexed.complete {n : NoticeUnit} (h : n.indexed) {f : NoticeInFlight} (flying : n.inFlight = some f)
    (status : MemStatus) (now : Micros) : (n.complete f status now).indexed := by
  obtain ⟨ring, indices, flight⟩ := h
  unfold NoticeUnit.complete
  extract_lets ended
  have landed : ended.indexed := ⟨ring, indices, fun _ h => nomatch h⟩
  split
  · exact landed
  next fresh =>
  obtain ⟨d, defined, value⟩ := flight f flying (Bool.eq_false_of_not_eq_true fresh)
  split
  · refine ⟨?_, indices, fun _ h => nomatch h⟩
    simp [NoticeUnit.fault, NoticeUnit.driveAttn, ended, defined]
  · next d' _ hd' =>
    refine ⟨ring, fun x hx => ?_, fun _ h => nomatch h⟩
    obtain rfl : d' = x := Option.some.inj (hd'.symm.trans hx)
    obtain ⟨size, write, consumed, writtenBack⟩ := indices d' hd'
    exact ⟨size, Nat.mod_lt _ (Nat.zero_lt_of_lt write), consumed, writtenBack⟩
  · exact landed
  · next v is =>
    refine ⟨ring, fun x hx => ?_, fun _ h => nomatch h⟩
    obtain rfl : d = x := Option.some.inj (defined ▸ hx)
    obtain ⟨size, write, consumed, _⟩ := indices d hx
    exact ⟨size, write, consumed, value v is⟩

theorem ringSizes_pos {n : Nat} (h : n ∈ ringSizes) : 0 < n := by
  simp only [ringSizes, List.mem_cons, List.not_mem_nil, or_false] at h
  omega

/-- The indices of a ring that starts afresh. -/
theorem NoticeUnit.indexed_fresh {n : NoticeUnit} (ring : n.ring = .unset ↔ n.definition = none)
    (size : ∀ d, n.definition = some d → d.entries ∈ ringSizes) (write : n.write = 0) (consumed : n.consumed = 0)
    (writtenBack : n.writtenBack = 0)
    (inFlight : ∀ f, n.inFlight = some f → f.stale = false →
      ∃ d, n.definition = some d ∧ ∀ v, f.write = .writeBack v → v < d.entries) : n.indexed := by
  refine ⟨ring, fun d hd => ?_, inFlight⟩
  have pos := ringSizes_pos (size d hd)
  rw [write, consumed, writtenBack]
  exact ⟨size d hd, pos, pos, pos⟩

theorem NoticeUnit.indexed.clearing {n : NoticeUnit} (h : n.indexed) : n.clearing.indexed := by
  obtain ⟨ring, indices, flight⟩ := h
  refine NoticeUnit.indexed_fresh ?_ (fun d hd => (indices d hd).1) rfl rfl rfl flight
  show (if n.ring = .faulted then RingState.active else n.ring) = .unset ↔ n.definition = none
  rw [← ring]
  split
  · next faulted => simp [faulted]
  · exact Iff.rfl

theorem NoticeUnit.indexed_setRing (n : NoticeUnit) (d : Option RingDef)
    (size : ∀ x, d = some x → x.entries ∈ ringSizes) : (n.setRing d).indexed := by
  refine NoticeUnit.indexed_fresh ?_ size rfl rfl rfl (fun f hf fresh => ?_)
  · show (if d = none then RingState.unset else .active) = .unset ↔ d = none
    split <;> simp_all
  · obtain ⟨g, _, rfl⟩ := Option.map_eq_some_iff.mp hf
    exact Bool.noConfusion fresh

theorem NoticeUnit.indexed_reset : NoticeUnit.reset.indexed :=
  NoticeUnit.indexed_fresh (by decide) (fun _ h => nomatch h) rfl rfl rfl (fun _ h => nomatch h)

theorem Move.indexed {c : Instr} {s t : State} (move : Move c s t) (h : s.notice.indexed) : t.notice.indexed := by
  cases move with
  | works works _ => exact h.posts works.notice
  | arrives m r => unfold arriveRequest; split <;> exact h
  | pops m => rw [popIntake_notice]; exact h
  | stores d b _ defined => exact h.takeIndex defined b
  | announces d v _ defined value =>
    refine h.writeBack defined rfl rfl rfl rfl rfl ?_
    rintro _ ⟨⟩ _ ⟨⟩
    obtain ⟨size, write, _⟩ := h.2.1 d defined
    rcases value with rfl | rfl
    · exact ringSizes_pos size
    · exact write
  | publishes d x rest _ defined =>
    refine h.writeBack defined rfl rfl rfl rfl rfl ?_
    rintro _ ⟨⟩ _ ⟨⟩
  | completes f status _ flying => exact h.complete flying status _
  | sends m =>
    unfold sendResponse
    split
    · exact h
    split <;> exact h
  | resets => exact NoticeUnit.indexed_reset
  | clears => exact h.clearing
  | suspends params _ _ works => exact h.posts works.notice
  | rings d _ _ fits => exact NoticeUnit.indexed_setRing _ _ (fun x hx => (fits x hx).1)
  | _ => exact h

/-! ### The guarded regions (R30) -/

/-- Two regions share no byte. -/
def Apart (a b : Region) : Prop := touches a b = false

theorem touches_comm (a b : Region) : touches a b = touches b a := by
  simp only [touches, max_comm a.1 b.1, min_comm (a.1 + a.2)]

theorem Apart.symm {a b : Region} (h : Apart a b) : Apart b a := (touches_comm b a).trans h

/-- The guarded regions of one window. -/
def State.sites (s : State) (w : Fin 16) : List Region :=
  if s.windows[w].state = .undefined then [] else
    match s.definition w with
    | none => []
    | some d => d.regions.map Prod.snd

theorem State.windowRegions_eq (s : State) (except : Option (Fin 16)) :
    s.windowRegions except = windowNumbers.flatMap (fun w => if except = some w then [] else s.sites w) := rfl

theorem State.mem_windowRegions {s : State} {except : Option (Fin 16)} {g : Region} :
    g ∈ s.windowRegions except ↔ ∃ w, except ≠ some w ∧ g ∈ s.sites w := by
  simp only [State.windowRegions_eq, List.mem_flatMap, mem_windowNumbers, true_and]
  refine exists_congr fun w => ?_
  split <;> simp [*]

/-- R30, window by window. -/
theorem State.regionsApart_iff (s : State) : s.regionsApart ↔
    ((∀ w, (s.sites w).Pairwise Apart) ∧ ∀ w w', w ≠ w' → ∀ a ∈ s.sites w, ∀ b ∈ s.sites w', Apart a b) ∧
    s.ringRegions.Pairwise Apart ∧ ∀ w, ∀ a ∈ s.sites w, ∀ b ∈ s.ringRegions, Apart a b := by
  let Distinct (w w' : Fin 16) : Prop := ∀ a ∈ s.sites w, ∀ b ∈ s.sites w', Apart a b
  have symm : Std.Symm Distinct := ⟨fun w w' h a ha b hb => (h b hb a ha).symm⟩
  have nodup : windowNumbers.Nodup := by decide
  have distinct : windowNumbers.Pairwise Distinct ↔ ∀ w w', w ≠ w' → Distinct w w' :=
    ⟨fun h w w' ne => h.forall (mem_windowNumbers w) (mem_windowNumbers w') ne, fun h => nodup.imp (fun ne => h _ _ ne)⟩
  have windows : (s.windowRegions none).Pairwise Apart ↔ (∀ w, (s.sites w).Pairwise Apart) ∧
      windowNumbers.Pairwise Distinct := by
    rw [State.windowRegions_eq, List.pairwise_flatMap]
    simp [mem_windowNumbers, Distinct]
  show (s.windowRegions none ++ s.ringRegions).Pairwise Apart ↔ _
  rw [List.pairwise_append, windows, distinct]
  refine and_congr_right fun _ => and_congr_right fun _ => ?_
  simp only [State.mem_windowRegions, ne_eq, reduceCtorEq, not_false_eq_true, true_and, forall_exists_index]
  exact forall_comm

theorem firstOverlap_eq_none {others : List Region} {l : List (Nat × Region)} :
    firstOverlap others l = none ↔
      (l.map Prod.snd).Pairwise Apart ∧ ∀ a ∈ l.map Prod.snd, ∀ b ∈ others, Apart a b := by
  induction l generalizing others with
  | nil => simp [firstOverlap]
  | cons x rest ih =>
    obtain ⟨i, g⟩ := x
    unfold firstOverlap
    split
    · next overlap =>
      obtain ⟨b, hb, touch⟩ := List.any_eq_true.mp overlap
      refine ⟨nofun, fun h => ?_⟩
      exact absurd (h.2 g (by simp) b hb) (by simp [Apart, touch])
    · next clear =>
      have clear : ∀ b ∈ others, Apart g b := fun b hb => by
        simpa [Apart] using fun t => clear (List.any_eq_true.mpr ⟨b, hb, t⟩)
      rw [ih]
      simp only [List.map_cons, List.pairwise_cons, List.mem_cons, forall_eq_or_imp]
      constructor
      · rintro ⟨pairs, each⟩
        exact ⟨⟨fun a ha => (each a ha).1.symm, pairs⟩, clear, fun a ha => (each a ha).2⟩
      · rintro ⟨⟨first, pairs⟩, _, each⟩
        exact ⟨pairs, fun a ha => ⟨(first a ha).symm, each a ha⟩⟩

/-- The guarded regions of a ring with this definition. -/
def ringSites (definition : Option RingDef) : List Region := definition.elim [] (fun d => d.regions.map Prod.snd)

/-- The invariant of R30: the guarded regions are apart, and an UNSET ring has no definition. -/
structure State.Sited (s : State) : Prop where
  apart : s.regionsApart
  unset : s.notice.ring = .unset → s.notice.definition = none

theorem State.ringRegions_eq {s : State} (unset : s.notice.ring = .unset → s.notice.definition = none) :
    s.ringRegions = ringSites s.notice.definition := by
  unfold State.ringRegions ringSites
  split
  · next h => rw [unset h]; rfl
  · cases s.notice.definition <;> rfl

theorem State.sites_congr {s t : State} {w : Fin 16} (definition : t.windows[w].definition = s.windows[w].definition)
    (undefined : t.windows[w].state = .undefined ↔ s.windows[w].state = .undefined) : t.sites w = s.sites w := by
  simp only [State.sites, State.definition, definition, undefined]

theorem State.sites_updWindow_ne {s : State} {w j : Fin 16} (h : j ≠ w) (f : Window → Window) :
    (s.updWindow w f).sites j = s.sites j := by
  have same : (s.updWindow w f).windows[j] = s.windows[j] := upd_ne _ _ h.symm
  simp only [State.sites, State.definition, same]

theorem State.sites_updWindow {s : State} {w : Fin 16} {f : Window → Window} :
    (s.updWindow w f).sites w = if (f s.windows[w]).state = .undefined then [] else
      match (f s.windows[w]).definition with
      | none => []
      | some d => d.regions.map Prod.snd := by
  have same : (s.updWindow w f).windows[w] = f s.windows[w] := upd_same ..
  simp only [State.sites, State.definition, same]

theorem State.Sited.congr {s t : State} (h : s.Sited) (sites : ∀ w, t.sites w = s.sites w)
    (definition : t.notice.definition = s.notice.definition) (ring : t.notice.ring = .unset → s.notice.ring = .unset) :
    t.Sited := by
  have unset : t.notice.ring = .unset → t.notice.definition = none := fun u => definition.trans (h.unset (ring u))
  refine ⟨?_, unset⟩
  have apart := s.regionsApart_iff.mp h.apart
  rw [State.regionsApart_iff, State.ringRegions_eq unset, definition, ← State.ringRegions_eq h.unset]
  simpa only [sites] using apart

/-- A window's regions change, and fit between the others. -/
theorem State.Sited.updWindow {s : State} (h : s.Sited) (w : Fin 16) (f : Window → Window)
    (pairs : ((s.updWindow w f).sites w).Pairwise Apart)
    (others : ∀ a ∈ (s.updWindow w f).sites w, ∀ b ∈ s.windowRegions (some w) ++ s.ringRegions, Apart a b) :
    (s.updWindow w f).Sited := by
  refine ⟨?_, h.unset⟩
  obtain ⟨⟨each, distinct⟩, ring, mixed⟩ := s.regionsApart_iff.mp h.apart
  have apart_window : ∀ a ∈ (s.updWindow w f).sites w, ∀ j ≠ w, ∀ b ∈ s.sites j, Apart a b := fun a ha j hj b hb =>
    others a ha b (List.mem_append_left _ (State.mem_windowRegions.mpr ⟨j, by simpa using hj.symm, hb⟩))
  refine (State.regionsApart_iff _).mpr ⟨⟨fun j => ?_, fun i j ne a ha b hb => ?_⟩, ring, fun j a ha b hb => ?_⟩
  · by_cases hj : j = w
    · exact hj ▸ pairs
    · rw [State.sites_updWindow_ne hj]; exact each j
  · by_cases hi : i = w
    · subst hi
      rw [State.sites_updWindow_ne ne.symm] at hb
      exact apart_window a ha j ne.symm b hb
    · rw [State.sites_updWindow_ne hi] at ha
      by_cases hj : j = w
      · subst hj
        exact (apart_window b hb i hi a ha).symm
      · rw [State.sites_updWindow_ne hj] at hb
        exact distinct i j ne a ha b hb
  · by_cases hj : j = w
    · exact others a (hj ▸ ha) b (List.mem_append_right _ hb)
    · rw [State.sites_updWindow_ne hj] at ha
      exact mixed j a ha b hb

theorem State.Sited.defines {s : State} (h : s.Sited) (w : Fin 16) (d : Definition)
    (fits : relationalCheck w d s = none) :
    (s.updWindow w (fun x => { x with state := .defined, definition := some d })).Sited := by
  have clear : firstOverlap (s.windowRegions (some w) ++ s.ringRegions) d.regions = none := by
    unfold relationalCheck at fits
    extract_lets tooLong at fits
    split at fits
    · cases fits
    split at fits
    · cases fits
    · exact fits
  obtain ⟨pairs, others⟩ := firstOverlap_eq_none.mp clear
  refine h.updWindow w _ ?_ ?_ <;> rw [State.sites_updWindow]
  · exact pairs
  · exact others

/-- The guarded regions of a definition without its commit word, then that of the word. -/
theorem Definition.regions_word (d : Definition) (a : Option Addr) :
    ({ d with word := a } : Definition).regions.map Prod.snd =
      ({ d with word := none } : Definition).regions.map Prod.snd ++ a.toList.map wordRegion := by
  have parts : ({ d with word := a } : Definition).regions =
      ({ d with word := none } : Definition).regions ++ a.toList.map (fun x => (8, wordRegion x)) := by
    cases a with
    | none => exact (List.append_nil _).symm
    | some x => exact congrArg (· ++ [(8, wordRegion x)]) (List.append_nil _).symm
  rw [parts, List.map_append, List.map_map]
  rfl

theorem State.Sited.words {s : State} (h : s.Sited) (w : Fin 16) (d : Definition) (a : Option Addr)
    (state : s.windows[w].state = .defined) (definition : s.definition w = some d)
    (clear : ∀ x, a = some x → wordOverlaps w d x s = false) :
    (s.updWindow w (fun x => { x with definition := some { d with word := a } })).Sited := by
  obtain ⟨⟨each, distinct⟩, ring, mixed⟩ := s.regionsApart_iff.mp h.apart
  have sites : s.sites w = ({ d with word := none } : Definition).regions.map Prod.snd ++ d.word.toList.map wordRegion := by
    rw [← Definition.regions_word]
    simp only [State.sites, state, reduceCtorEq, if_false, definition]
  have kept : ∀ g ∈ ({ d with word := none } : Definition).regions.map Prod.snd, g ∈ s.sites w := fun g hg =>
    sites ▸ List.mem_append_left _ hg
  have word : ∀ x, a = some x → ∀ g ∈ s.windowRegions (some w) ++ s.ringRegions ++
      ({ d with word := none } : Definition).regions.map Prod.snd, Apart (wordRegion x) g := fun x hx g hg =>
    Bool.eq_false_of_not_eq_true (List.any_eq_false.mp (clear x hx) g hg)
  have given : (s.updWindow w (fun x => { x with definition := some { d with word := a } })).sites w =
      ({ d with word := none } : Definition).regions.map Prod.snd ++ a.toList.map wordRegion := by
    rw [State.sites_updWindow, ← Definition.regions_word]
    exact if_neg (by rw [state]; decide)
  refine h.updWindow w _ ?_ ?_ <;> rw [given]
  · refine List.pairwise_append.mpr ⟨?_, by cases a <;> simp, fun g hg x hx => ?_⟩
    · have := each w
      rw [sites] at this
      exact (List.pairwise_append.mp this).1
    · obtain ⟨y, hy, rfl⟩ := List.mem_map.mp hx
      exact (word y (by simpa using hy) g (List.mem_append_right _ hg)).symm
  · intro g hg b hb
    rcases List.mem_append.mp hg with hg | hg
    · rcases List.mem_append.mp hb with hb | hb
      · obtain ⟨j, ne, hj⟩ := State.mem_windowRegions.mp hb
        exact distinct w j (by simpa using ne) g (kept g hg) b hj
      · exact mixed w g (kept g hg) b hb
    · obtain ⟨y, hy, rfl⟩ := List.mem_map.mp hg
      exact word y (by simpa using hy) b (List.mem_append_left _ hb)

theorem State.Sited.undefines {s : State} (h : s.Sited) (w : Fin 16) :
    (s.updWindow w (fun x => { x with state := .undefined, definition := none })).Sited := by
  refine h.updWindow w _ ?_ ?_ <;> rw [State.sites_updWindow] <;> simp

theorem State.sites_limits (s : State) (w : Fin 16) (n : Nat) (j : Fin 16) :
    (s.updWindow w (fun x => { x with definition := x.definition.map (fun d => { d with limit := n }) })).sites j =
      s.sites j := by
  by_cases hj : j = w
  · subst hj
    rw [State.sites_updWindow, State.sites, State.definition]
    split
    · rfl
    · cases s.windows[j].definition <;> rfl
  · exact State.sites_updWindow_ne hj _

/-- The ring's regions change, and fit between the windows'. -/
theorem State.Sited.rings {s : State} (h : s.Sited) (d : Option RingDef) (fits : ∀ x, d = some x → ringOverlap x s = none) :
    (s.updNotice (fun n => n.setRing d)).Sited := by
  have unset : (s.notice.setRing d).ring = .unset → (s.notice.setRing d).definition = none := by
    show (if d = none then RingState.unset else .active) = .unset → d = none
    split <;> simp_all
  refine ⟨?_, unset⟩
  obtain ⟨windows, _, _⟩ := s.regionsApart_iff.mp h.apart
  rw [State.regionsApart_iff, State.ringRegions_eq unset]
  refine ⟨windows, ?_⟩
  show (ringSites d).Pairwise Apart ∧ ∀ w, ∀ a ∈ s.sites w, ∀ b ∈ ringSites d, Apart a b
  cases d with
  | none => simp [ringSites]
  | some x =>
    have clear := fits x rfl
    unfold ringOverlap at clear
    split at clear
    · cases clear
    next alone =>
    refine ⟨(firstOverlap_eq_none.mp alone).1, fun w a ha b hb => ?_⟩
    obtain ⟨p, hp, rfl⟩ := List.mem_map.mp hb
    have free := List.find?_eq_none.mp (Option.map_eq_none_iff.mp clear) p hp
    have site : a ∈ s.windowRegions none := State.mem_windowRegions.mpr ⟨w, nofun, ha⟩
    have apart : Apart p.2 a := Bool.eq_false_of_not_eq_true
      (List.any_eq_false.mp (Bool.eq_false_of_not_eq_true free) a site)
    exact apart.symm

theorem State.sites_reset (w : Fin 16) : State.reset.sites w = [] := by
  simp [State.sites, State.reset, Window.reset]

theorem State.sited_reset : State.reset.Sited := by
  refine ⟨(State.regionsApart_iff _).mpr ?_, fun _ => rfl⟩
  have ring : State.reset.ringRegions = [] := rfl
  simp [State.sites_reset, ring]

theorem Move.sited {c : Instr} {s t : State} (move : Move c s t) (h : s.Sited) : t.Sited := by
  cases move with
  | works works eases =>
    exact h.congr (fun w => State.sites_congr (works.definition w) (eases.undefined w)) works.notice.definition.1
      (fun u => (NoticeUnit.SameRing.of_posts works.notice).ring ▸ u)
  | arrives m r => unfold arriveRequest; split <;> exact h.congr (fun _ => rfl) rfl id
  | pops m =>
    exact h.congr (fun w => by simp only [State.sites, State.definition, popIntake_windows]) (by rw [popIntake_notice])
      (by rw [popIntake_notice]; exact id)
  | stores d b =>
    have same : (s.notice.takeIndex d b).definition = s.notice.definition := by
      unfold NoticeUnit.takeIndex
      split
      · rfl
      split <;> rfl
    exact h.congr (fun _ => rfl) same (fun u => (s.notice.takeIndex_ring d b) ▸ u)
  | completes f status =>
    have same : (s.notice.complete f status s.timebase).definition = s.notice.definition ∧
        ((s.notice.complete f status s.timebase).ring = .unset → s.notice.ring = .unset) := by
      unfold NoticeUnit.complete
      extract_lets ended
      split
      · exact ⟨rfl, id⟩
      split
      · exact ⟨rfl, fun u => nomatch u⟩
      all_goals exact ⟨rfl, id⟩
    exact h.congr (fun _ => rfl) same.1 same.2
  | sends m =>
    unfold sendResponse
    split
    · exact h
    split
    · exact h.congr (fun _ => rfl) rfl id
    · exact h
  | resets => exact State.sited_reset.congr (fun _ => rfl) rfl id
  | clears =>
    refine h.congr (fun _ => rfl) rfl ?_
    show (if s.notice.ring = .faulted then RingState.active else s.notice.ring) = .unset → _
    split
    · exact fun u => nomatch u
    · exact id
  | suspends params _ _ works _ undefined =>
    exact h.congr (fun w => State.sites_congr (works.definition w) (undefined w)) works.notice.definition.1
      (fun u => (NoticeUnit.SameRing.of_posts works.notice).ring ▸ u)
  | defines w d _ _ fits => exact h.defines w d fits
  | words w d a _ _ state definition clear => exact h.words w d a state definition clear
  | undefines w => exact h.undefines w
  | limits w n => exact h.congr (s.sites_limits w n) rfl id
  | rings d _ _ fits => exact h.rings d (fun x hx => (fits x hx).2)
  | _ => exact h.congr (fun _ => rfl) rfl id

end Sys2Proof.Machine

namespace Sys2Proof
open Machine

/-- Settles O57: each move of a command keeps the bounds and the stopped copier; an edge on the link's pins keeps the
incomplete byte below 8 bits. -/
theorem listsStayBounded : Obligations.ListsStayBounded := by
  refine ⟨fun s t h step => ?_, fun s t bounded one pending lost run => ?_⟩
  · exact step_keeps (P := State.copierStopped) (fun _ _ _ _ h => h) (fun _ _ _ move h => move.copierStopped h) h step
  · have listed : s.Listed := ⟨bounded, one, pending, lost⟩
    suffices h : t.Listed from ⟨h.bounded, h.one, h.pending, h.lost⟩
    unfold step at run
    split at run
    · next c rest _ => exact (exec_moves run).keep (fun _ _ move h => move.listed h) ⟨bounded, one, pending, lost⟩
    split at run
    · next e rest _ =>
      obtain ⟨g, frame, done⟩ := takeEdge_cases run bounded.2.2.2
      have clocked : ({ s with edges := rest, link := { s.link with frame := g } } : State).Listed :=
        listed.congr rfl rfl rfl rfl frame le_rfl lost
      rcases done with rfl | ⟨c, run⟩
      · exact clocked
      · exact (exec_moves run).keep (fun _ _ move h => move.listed h) clocked
    · cases run; exact listed

/-- Settles O58: the checks of the commands that give regions keep them apart, and no other command moves a region. -/
theorem guardedRegionsStayApart : Obligations.GuardedRegionsStayApart := by
  intro s t apart unset run
  have sited : t.Sited := step_keeps (P := State.Sited) (fun _ _ _ _ h => h.congr (fun _ => rfl) rfl id)
    (fun _ _ _ move h => move.sited h) ⟨apart, unset⟩ run
  exact ⟨sited.apart, sited.unset⟩

/-- Settles O59: each move of a command keeps the indices within the entries. -/
theorem ringIndicesStayInRange : Obligations.RingIndicesStayInRange := fun _ _ h run =>
  step_keeps (P := fun s => s.notice.indexed) (fun _ _ _ _ h => h) (fun _ _ _ move h => move.indexed h) h run

/-- Settles O60. -/
theorem resetMeetsInvariants : Obligations.ResetMeetsInvariants := by
  obtain ⟨bounded, one, pending, lost⟩ := State.listed_reset
  exact ⟨bounded, one, pending, lost, copierStopped_of_running (by decide), State.sited_reset.apart,
    NoticeUnit.indexed_reset, pending, lost, by decide⟩

end Sys2Proof
end

section
/-! SUPPORT. Which moves of a command change the queues, the lists, the places, the configuration, the timebase and the
link. -/

namespace Sys2Proof.Machine

/-! ### Chains of moves -/

/-- A relation that each move of a command keeps holds between the state before the command and the one after it. -/
theorem exec_relates {R : State → State → Prop} (refl : ∀ s, R s s) (trans : ∀ {s t u}, R s t → R t u → R s u)
    {c : Instr} (move : ∀ s t, Move c s t → R s t) {s t : State} (h : exec c s = .next t) : R s t :=
  (exec_moves h).keep (P := R s) (fun t u m r => trans r (move t u m)) (refl s)

/-- A value that each move of a command keeps, the command keeps. -/
theorem exec_same {α : Type} (f : State → α) {c : Instr} (move : ∀ s t, Move c s t → f t = f s) {s t : State}
    (h : exec c s = .next t) : f t = f s :=
  exec_relates (R := fun s t => f t = f s) (fun _ => rfl) (fun a b => b.trans a) move h

/-- What the arrival of a request and the sending of a response leave alone. -/
theorem arriveRequest_frame (m : Fin 16) (r : Request) (s : State) :
    arriveRequest m r s = { s with intake := (arriveRequest m r s).intake, onBus := (arriveRequest m r s).onBus } := by
  unfold arriveRequest
  split <;> rfl

theorem sendResponse_frame (m : Fin 16) (s : State) :
    sendResponse m s = { s with responses := (sendResponse m s).responses, sent := (sendResponse m s).sent } := by
  unfold sendResponse
  split
  · rfl
  split <;> rfl

theorem Move.queues {c : Instr} {s t : State} (move : Move c s t) : (t.pending, t.edges) = (s.pending, s.edges) := by
  cases move with
  | works works => rw [works.pending, works.edges]
  | suspends _ _ _ works => exact Prod.ext works.pending works.edges
  | arrives m r => rw [arriveRequest_frame]
  | pops m => rw [popIntake_pending, popIntake_eq]
  | sends m => rw [sendResponse_frame]
  | _ => rfl

theorem Move.intake {c : Instr} (arrival : ∀ m r, c ≠ .requestArrival m r) (classification : ∀ m, c ≠ .classification m)
    (reset : ∀ b, c ≠ .hardReset b) {s t : State} (move : Move c s t) : (t.intake, t.onBus) = (s.intake, s.onBus) := by
  cases move with
  | works works => rw [works.intake, works.onBus]
  | suspends _ _ _ works => exact Prod.ext works.intake works.onBus
  | arrives m r _ is => exact absurd is (arrival m r)
  | pops m _ is => exact absurd is (classification m)
  | resets b _ is => exact absurd is (reset b)
  | sends m => rw [sendResponse_frame]
  | _ => rfl

theorem Move.entries {c : Instr} (classification : ∀ m, c ≠ .classification m) (send : ∀ m, c ≠ .responseSent m)
    (reset : ∀ b, c ≠ .hardReset b) (m : Fin 16) {s t : State} (move : Move c s t) :
    t.responses[m].map Entry.name = s.responses[m].map Entry.name := by
  cases move with
  | works works => exact works.entries m
  | suspends _ _ _ works => exact works.entries m
  | arrives m r => rw [arriveRequest_frame]
  | pops m _ is => exact absurd is (classification m)
  | enters m _ _ _ _ _ is => exact absurd is (classification m)
  | sends m _ is => exact absurd is (send m)
  | resets b _ is => exact absurd is (reset b)
  | _ => rfl

theorem Move.sent {c : Instr} (send : ∀ m, c ≠ .responseSent m) (reset : ∀ b, c ≠ .hardReset b) {s t : State}
    (move : Move c s t) : t.sent = s.sent := by
  cases move with
  | works works => exact works.sent
  | suspends _ _ _ works => exact works.sent
  | arrives m r => rw [arriveRequest_frame]
  | pops m => exact popIntake_sent m s
  | sends m _ is => exact absurd is (send m)
  | resets b _ is => exact absurd is (reset b)
  | _ => rfl

theorem Move.places_kept {c : Instr} (grant : c ≠ .issueGrant) (i : Fin 32) {s t : State} (move : Move c s t) :
    t.places[i] = s.places[i] ∨ t.places[i] = none := by
  cases move with
  | works works => exact .inl (by rw [works.places])
  | suspends _ _ _ works => exact .inl (by rw [works.places]; rfl)
  | arrives m r => rw [arriveRequest_frame]; exact .inl rfl
  | pops m => rw [popIntake_places]; exact .inl rfl
  | sends m => rw [sendResponse_frame]; exact .inl rfl
  | places _ _ _ is => exact absurd is grant
  | releases j =>
    show (upd s.places j (fun _ => none))[i] = _ ∨ (upd s.places j (fun _ => none))[i] = _
    rw [upd_get]
    split
    · exact .inr rfl
    · exact .inl rfl
  | resets => exact .inr (by simp [hardReset, State.reset])
  | _ => exact .inl rfl

theorem Move.rotation {c : Instr} (grant : c ≠ .issueGrant) (reset : ∀ b, c ≠ .hardReset b) {s t : State}
    (move : Move c s t) : t.lastGranted = s.lastGranted := by
  cases move with
  | works works => exact works.lastGranted
  | suspends _ _ _ works => exact works.lastGranted
  | arrives m r => rw [arriveRequest_frame]
  | pops m => exact popIntake_lastGranted m s
  | sends m => rw [sendResponse_frame]
  | grants _ _ is => exact absurd is grant
  | places _ _ _ is => exact absurd is grant
  | resets b _ is => exact absurd is (reset b)
  | _ => rfl

theorem NoticeUnit.takeIndex_definition (n : NoticeUnit) (d : RingDef) (b : Beat) :
    (n.takeIndex d b).definition = n.definition ∧ (n.takeIndex d b).mask = n.mask := by
  unfold NoticeUnit.takeIndex
  split
  · exact ⟨rfl, rfl⟩
  split <;> exact ⟨rfl, rfl⟩

theorem NoticeUnit.complete_definition (n : NoticeUnit) (f : NoticeInFlight) (status : MemStatus) (now : Micros) :
    (n.complete f status now).definition = n.definition ∧ (n.complete f status now).mask = n.mask := by
  unfold NoticeUnit.complete
  extract_lets ended
  split
  · exact ⟨rfl, rfl⟩
  split <;> exact ⟨rfl, rfl⟩

/-- The configuration is the same: the bindings, the definitions, the mask and the result record. -/
structure SameConfiguration (s t : State) : Prop where
  consumers  : t.consumers = s.consumers
  definition : ∀ w, t.definition w = s.definition w
  ring       : t.notice.definition = s.notice.definition
  mask       : t.notice.mask = s.notice.mask
  result     : t.link.result = s.link.result

theorem SameConfiguration.refl (s : State) : SameConfiguration s s := ⟨rfl, fun _ => rfl, rfl, rfl, rfl⟩

theorem SameConfiguration.trans {s t u : State} (h : SameConfiguration s t) (k : SameConfiguration t u) :
    SameConfiguration s u :=
  ⟨k.consumers.trans h.consumers, fun w => (k.definition w).trans (h.definition w), k.ring.trans h.ring,
    k.mask.trans h.mask, k.result.trans h.result⟩

theorem Move.configuration {c : Instr} (write : configures c = false) {s t : State} (move : Move c s t) :
    SameConfiguration s t := by
  cases move with
  | works works =>
    obtain ⟨ring, mask⟩ := works.notice.definition
    exact ⟨works.consumers, works.definition, ring, mask, congrArg Link.result works.link⟩
  | arrives m r => rw [arriveRequest_frame]; exact ⟨rfl, fun _ => rfl, rfl, rfl, rfl⟩
  | pops m =>
    exact ⟨popIntake_consumers m s, popIntake_definition m s, by rw [popIntake_notice], by rw [popIntake_notice],
      by rw [popIntake_link]⟩
  | stores d b =>
    obtain ⟨ring, mask⟩ := s.notice.takeIndex_definition d b
    exact ⟨rfl, fun _ => rfl, ring, mask, rfl⟩
  | completes f status =>
    obtain ⟨ring, mask⟩ := s.notice.complete_definition f status s.timebase
    exact ⟨rfl, fun _ => rfl, ring, mask, rfl⟩
  | sends m => rw [sendResponse_frame]; exact ⟨rfl, fun _ => rfl, rfl, rfl, rfl⟩
  | suspends _ _ is => subst is; cases write
  | resets b _ is => subst is; cases write
  | defines _ _ _ is => exact absurd is (by simp [write])
  | words _ _ _ _ is => exact absurd is (by simp [write])
  | undefines _ _ is => exact absurd is (by simp [write])
  | limits _ _ _ is => exact absurd is (by simp [write])
  | binds _ _ is => exact absurd is (by simp [write])
  | rings _ _ is => exact absurd is (by simp [write])
  | masks _ _ is => exact absurd is (by simp [write])
  | records _ _ _ _ is => exact absurd is (by simp [write])
  | _ => exact ⟨rfl, fun _ => rfl, rfl, rfl, rfl⟩

theorem Move.frame {c : Instr} (write : configures c = false) (read : ∀ params, ∀ x ∈ readFrames params, x.1 ≠ c)
    {s t : State} (move : Move c s t) : t.link.frame = s.link.frame := by
  cases move with
  | works works => rw [works.link]
  | arrives m r => rw [arriveRequest_frame]
  | pops m => rw [popIntake_link]
  | sends m => rw [sendResponse_frame]
  | suspends _ _ is => subst is; cases write
  | resets b _ is => subst is; cases write
  | records _ _ _ _ is => exact absurd is (by simp [write])
  | reads _ _ is =>
    obtain ⟨params, x, hx, hc⟩ := is
    exact absurd hc (read params x hx)
  | _ => rfl

theorem Move.timebase {c : Instr} (tick : c ≠ .timebaseIncrement) (reset : ∀ b, c ≠ .hardReset b) {s t : State}
    (move : Move c s t) : t.timebase = s.timebase := by
  cases move with
  | works works => exact works.timebase
  | suspends _ _ _ works => exact works.timebase
  | arrives m r => rw [arriveRequest_frame]
  | pops m => exact popIntake_timebase m s
  | sends m => rw [sendResponse_frame]
  | ticks _ is => exact absurd is tick
  | resets b _ is => exact absurd is (reset b)
  | _ => rfl

theorem expireHoldoff_running {s : State} {start : Micros} {d : RingDef} (running : s.notice.holdoff = .running start)
    (defined : s.notice.definition = some d) : expireHoldoff s =
      if d.holdoff ≤ (s.timebase - start).toNat then { s with notice := { s.notice with holdoff := .expired } } else s := by
  unfold expireHoldoff
  rw [running, defined]
  simp [elapsed, State.updNotice]

/-- The takes, drain completions and idle expiries of a window work on that window. -/
theorem exec_local {c : Instr} {w : Fin 16} (is : c = .commitTake w ∨ c = .drainCompletion w ∨ ∃ k, c = .idleExpiry w k)
    {s t : State} (h : exec c s = .next t) : Local w s t := by
  rcases is with rfl | rfl | ⟨k, rfl⟩ <;> cases h
  · exact local_takeCommit w s
  · exact local_testDrain w s
  · exact local_expireIdle w k s

end Sys2Proof.Machine

namespace Sys2Proof
open Machine

/-- Settles O1. -/
theorem stepRunsFrontCommand : Obligations.StepRunsFrontCommand := by
  refine ⟨fun c rest s pending => ?_, fun e rest s pending edges => ?_, fun s pending edges => ?_⟩ <;> unfold step
  · rw [pending]
  · rw [pending, edges]
  · rw [pending, edges]

/-- Settles O2: `exec` answers a next state for every command, and each move of a command keeps the two queues. -/
theorem everyCommandCompletes : Obligations.EveryCommandCompletes := by
  intro c s
  obtain ⟨t, run⟩ := exec_total c s
  have queues := exec_same (fun s => (s.pending, s.edges)) (fun _ _ move => move.queues) run
  exact ⟨t, run, congrArg Prod.fst queues, congrArg Prod.snd queues⟩

/-- Settles O3: the two branches of the arrival. -/
theorem arrivalJoinsQueueOrStaysOnBus : Obligations.ArrivalJoinsQueueOrStaysOnBus := by
  refine fun m r s => ⟨fun room => ?_, fun full => ?_⟩
  · exact congrArg _ (if_pos room)
  · exact congrArg _ (if_neg (Nat.not_lt.mpr full))

/-- Settles O5. -/
theorem responsesLeaveInOrder : Obligations.ResponsesLeaveInOrder := by
  refine ⟨fun m e rest a s list stage => ?_, fun m s waits => ?_⟩ <;>
    refine congrArg Host.Outcome.next ?_ <;> unfold sendResponse
  · rw [list]
    simp only [stage]
    rfl
  · split
    · rfl
    next e rest list =>
    split
    · next a stage => exact absurd stage (waits e a (by rw [list]; rfl))
    · rfl

/-- Settles O33: the branches of a posting, and the code of each notice body. -/
theorem postingTaken : Obligations.PostingTaken := by
  have codes (b : NoticeBody) : 1 ≤ b.code ∧ b.code ≤ 14 := by cases b <;> simp [NoticeBody.code]
  refine fun n b now => ⟨fun off => ?_, fun active on full => ?_, fun active on room => ?_, codes b⟩ <;>
    unfold NoticeUnit.take
  · rcases off with off | off
    · rw [if_pos off]
    · rw [if_pos off, ite_self]
  · rw [if_neg (not_not.mpr active), if_neg (by simp [on]), if_pos full]
    congr 1
    show min 255 (n.lost + 1) = _
    split <;> omega
  · rw [if_neg (not_not.mpr active), if_neg (by simp [on]), if_neg (Nat.not_le.mpr room)]

/-- Settles O35: the expiry waits for the holdoff, and no move but a tick and RESET_N moves the timebase. -/
theorem timebaseAndHoldoff : Obligations.TimebaseAndHoldoff := by
  refine ⟨fun start d s running defined => ⟨fun due => ?_, fun early => ?_⟩, fun s => ?_, fun c s t run tick => ?_⟩
  · exact congrArg _ ((expireHoldoff_running running defined).trans (if_pos due))
  · exact congrArg _ ((expireHoldoff_running running defined).trans (if_neg (Nat.not_le.mpr early)))
  · have step : s.timebase + 1 = BitVec.ofNat 32 (s.timebase.toNat + 1) := BitVec.eq_of_toNat_eq (by simp)
    exact congrArg (fun x => Host.Outcome.next { s with timebase := x }) step
  · by_cases reset : ∃ b, c = .hardReset b
    · obtain ⟨b, rfl⟩ := reset
      cases run
      rfl
    · have same : t.timebase = s.timebase :=
        exec_same State.timebase (fun _ _ move => move.timebase tick (fun b is => reset ⟨b, is⟩)) run
      rw [same]
      split
      · exact absurd ⟨_, rfl⟩ reset
      · rfl

/-- Settles O41: every field of the state after RESET_N. -/
theorem hardResetClearsPart : Obligations.HardResetClearsPart := by
  refine fun b s => ⟨_, rfl, fun m => ?_, fun i => ?_, rfl, fun w => ?_, fun c => ?_, rfl, rfl, rfl, fun j => ?_, rfl, rfl,
    rfl, rfl⟩ <;> simp [hardReset, State.reset, State.view, Copier.reset, Window.reset, CommitState.reset]

/-- Settles O55: each clause names the commands whose moves change what it speaks of; what a take, a drain completion or
an idle expiry leaves alone is `Local`. -/
theorem onlyTheirCommandsChangeThem : Obligations.OnlyTheirCommandsChangeThem := by
  intro c s t run
  refine ⟨fun arrival classification reset => ?_, fun classification send reset m => ?_, fun send reset => ?_,
    fun grant => ⟨fun i => ?_, fun reset => ?_⟩, fun write => ?_, fun write read => ?_, fun w is w' ne => ?_⟩
  · have same := exec_same (fun s => (s.intake, s.onBus)) (fun _ _ m => m.intake arrival classification reset) run
    exact ⟨congrArg Prod.fst same, congrArg Prod.snd same⟩
  · exact exec_same (fun s => s.responses[m].map Entry.name) (fun _ _ k => k.entries classification send reset m) run
  · exact exec_same State.sent (fun _ _ m => m.sent send reset) run
  · refine exec_relates (R := fun s t => t.places[i] = s.places[i] ∨ t.places[i] = none) (fun _ => .inl rfl)
      (fun {s t u} first second => ?_) (fun _ _ m => m.places_kept grant i) run
    rcases second with same | gone
    · exact same ▸ first
    · exact .inr gone
  · exact exec_same State.lastGranted (fun _ _ m => m.rotation grant reset) run
  · have same := exec_relates .refl .trans (fun _ _ m => Move.configuration write m) run
    exact ⟨same.consumers, same.definition, same.ring, same.mask, same.result⟩
  · exact exec_same (fun s => s.link.frame) (fun _ _ m => m.frame write read) run
  · have only := exec_local is run
    exact ⟨only.windows w' ne, only.rolls w' ne, only.views w' ne, only.commits w' ne⟩

end Sys2Proof
end

section
/-! SUPPORT. The lowest-numbered choice, the geometry of windows (R14, R89, R90), and the tests of section 1.3 on a head
request. -/

namespace Sys2Proof.Machine

/-! ### The lowest-numbered choice -/

/-- The first entry of a list sorted by a key that meets a test is the one of the lowest key that does. -/
theorem find?_sorted {α : Type} (key : α → Nat) {l : List α} (sorted : l.Pairwise (fun a b => key a < key b))
    {p : α → Bool} {a : α} :
    l.find? p = some a ↔ a ∈ l ∧ p a = true ∧ ∀ b ∈ l, key b < key a → p b = false := by
  induction l with
  | nil => simp
  | cons x l ih =>
    obtain ⟨above, sorted⟩ := List.pairwise_cons.mp sorted
    rw [List.find?_cons]
    cases hx : p x with
    | true =>
      simp only [Option.some.injEq, List.mem_cons, forall_eq_or_imp]
      constructor
      · rintro rfl
        exact ⟨.inl rfl, hx, fun h => absurd h (lt_irrefl _), fun b hb h => absurd h (above b hb).not_gt⟩
      · rintro ⟨rfl | ha, _, first, _⟩
        · rfl
        · rw [first (above a ha)] at hx
          cases hx
    | false =>
      simp only [ih sorted, List.mem_cons, forall_eq_or_imp, hx]
      constructor
      · rintro ⟨ha, pa, low⟩
        exact ⟨.inr ha, pa, fun _ => trivial, low⟩
      · rintro ⟨rfl | ha, pa, _, low⟩
        · rw [pa] at hx
          cases hx
        · exact ⟨ha, pa, low⟩

theorem sorted_windowNumbers : windowNumbers.Pairwise (fun a b => a.val < b.val) := by decide
theorem sorted_slotNumbers : slotNumbers.Pairwise (fun a b => a.val < b.val) := by decide
theorem sorted_bufferNumbers : bufferNumbers.Pairwise (fun a b => a.val < b.val) := by decide
theorem sorted_placeNumbers : placeNumbers.Pairwise (fun a b => a.val < b.val) := by decide
theorem mem_slotNumbers (i : Fin 4) : i ∈ slotNumbers := by revert i; decide
theorem mem_bufferNumbers (i : Fin 4) : i ∈ bufferNumbers := by revert i; decide
theorem mem_consumerNumbers (c : Fin 8) : c ∈ consumerNumbers := by revert c; decide
theorem mem_placeNumbers (i : Fin 32) : i ∈ placeNumbers := by revert i; decide
theorem mem_masters (m : Fin 16) : m ∈ masters := by revert m; decide

/-! ### Pieces (R14) -/

theorem Definition.blockSize_dvd (d : Definition) : 256 ∣ d.blockSize := ⟨_, rfl⟩

theorem Definition.blockSize_pos (d : Definition) : 0 < d.blockSize := Nat.mul_pos (by decide) (Nat.pow_pos (by decide))

/-- A byte of a window's range lies in its block. -/
theorem Definition.unitOf_bounds (d : Definition) {a : Nat} (h : d.base.toNat ≤ a) :
    d.base.toNat + d.unitOf a * d.blockSize ≤ a ∧ a < d.base.toNat + (d.unitOf a + 1) * d.blockSize := by
  have below : (a - d.base.toNat) / d.blockSize * d.blockSize ≤ a - d.base.toNat := Nat.div_mul_le_self ..
  have above : a - d.base.toNat < ((a - d.base.toNat) / d.blockSize + 1) * d.blockSize :=
    (Nat.div_lt_iff_lt_mul d.blockSize_pos).mp (Nat.lt_succ_self _)
  unfold Definition.unitOf
  omega

/-- Where a request inside a window's range that is cut in two is cut: `n` beats lie in the block of its first byte, at
least one beat and not all, and the rest lies in the next block. -/
theorem cut_bounds {d : Definition} {r : Request} (wf : r.wf = true) (base : d.base.toNat % d.blockSize = 0)
    (inside : liesInside (requestRange r) d.range = true) :
    1 ≤ r.beats ∧ r.addr.toNat + 8 * r.beats ≤ d.base.toNat + d.rangeLength ∧
    d.base.toNat + firstUnit d r * d.blockSize ≤ r.addr.toNat ∧
    (firstUnit d r = lastUnit d r → r.addr.toNat + 8 * r.beats ≤ d.base.toNat + (firstUnit d r + 1) * d.blockSize) ∧
    (firstUnit d r ≠ lastUnit d r → ∃ n, (d.base.toNat + (firstUnit d r + 1) * d.blockSize - r.addr.toNat) / 8 = n ∧
      r.addr.toNat + 8 * n = d.base.toNat + (firstUnit d r + 1) * d.blockSize ∧ 1 ≤ n ∧ n < r.beats ∧
      r.addr.toNat + 8 * r.beats ≤ d.base.toNat + (firstUnit d r + 1 + 1) * d.blockSize) := by
  simp only [Request.wf, Request.aligned, Request.beatsInRange, Bool.and_eq_true, beq_iff_eq, decide_eq_true_eq] at wf
  rw [liesInside, Bool.and_eq_true, decide_eq_true_eq, decide_eq_true_eq] at inside
  obtain ⟨⟨aligned, least, most⟩, _⟩ := wf
  obtain ⟨low, high⟩ : d.base.toNat ≤ r.addr.toNat ∧ r.addr.toNat + 8 * r.beats ≤ d.base.toNat + d.rangeLength := inside
  obtain ⟨first_low, first_high⟩ := d.unitOf_bounds low
  obtain ⟨last_low, last_high⟩ := d.unitOf_bounds (a := r.addr.toNat + 8 * r.beats - 1) (by omega)
  obtain ⟨k, size⟩ := d.blockSize_dvd
  obtain ⟨j, start⟩ := Nat.dvd_of_mod_eq_zero base
  have large := d.blockSize_pos
  have eight : 8 ∣ d.base.toNat + (d.unitOf r.addr.toNat + 1) * d.blockSize :=
    ⟨32 * (k * j + (d.unitOf r.addr.toNat + 1) * k), by rw [start, size]; ring⟩
  refine ⟨least, high, first_low, fun same => ?_, fun differ => ?_⟩
  · rw [lastUnit] at same
    rw [← same] at last_high
    change r.addr.toNat + 8 * r.beats - 1 < d.base.toNat + (firstUnit d r + 1) * d.blockSize at last_high
    omega
  · have order : d.unitOf r.addr.toNat + 1 ≤ d.unitOf (r.addr.toNat + 8 * r.beats - 1) := by
      have : d.unitOf r.addr.toNat ≤ d.unitOf (r.addr.toNat + 8 * r.beats - 1) :=
        Nat.div_le_div_right (by omega)
      exact Nat.lt_of_le_of_ne this differ
    have cross := Nat.mul_le_mul_right d.blockSize order
    have next : (d.unitOf r.addr.toNat + 1 + 1) * d.blockSize = (d.unitOf r.addr.toNat + 1) * d.blockSize + d.blockSize := by
      ring
    unfold firstUnit
    refine ⟨_, rfl, ?_⟩
    omega

/-! ### The lines of a rolling window (R89, R90) -/

/-- Two lines that lie fewer than `R` apart around a ring of `R` lines are distinct. -/
theorem ring_injective {x a b r : Nat} (ha : a < r) (hb : b < r) (h : (x + a) % r = (x + b) % r) : a = b := by
  have := Nat.ModEq.add_left_cancel' x h
  rwa [Nat.ModEq, Nat.mod_eq_of_lt ha, Nat.mod_eq_of_lt hb] at this

end Sys2Proof.Machine

namespace Sys2Proof
open Machine

/-- Settles O9: the request ends in the block it begins in, or is cut where that block ends. -/
theorem piecesCoverRequest : Obligations.PiecesCoverRequest := by
  intro d r wf base space inside
  obtain ⟨least, high, low, one, two⟩ := cut_bounds wf base inside
  by_cases same : firstUnit d r = lastUnit d r
  · have pieces : cut d r = [plainPiece r.addr r.beats r.data (firstUnit d r)] := if_pos same
    have fits := one same
    simp [pieces, plainPiece]
    exact ⟨least, low, fits⟩
  · obtain ⟨n, cut_at, boundary, some_beats, not_all, fits⟩ := two same
    have pieces : cut d r = [plainPiece r.addr n (r.data.take n) (firstUnit d r),
        plainPiece (r.addr + BitVec.ofNat 40 (8 * n)) (r.beats - n) (r.data.drop n) (firstUnit d r + 1)] :=
      cut_at ▸ if_neg same
    have second : (r.addr + BitVec.ofNat 40 (8 * n)).toNat = r.addr.toNat + 8 * n := by
      rw [BitVec.toNat_add, BitVec.toNat_ofNat, Nat.mod_eq_of_lt (a := 8 * n) (by omega), Nat.mod_eq_of_lt (by omega)]
    simp only [pieces, plainPiece, List.length_cons, List.length_nil, List.map_cons, List.map_nil, List.sum_cons,
      List.sum_nil, List.flatMap_cons, List.flatMap_nil, List.append_nil, List.take_append_drop, List.forall_mem_cons,
      List.not_mem_nil, second]
    refine ⟨.inr trivial, by omega, trivial, ⟨⟨some_beats, low, boundary.le⟩, ⟨by omega, boundary.ge, by omega⟩, nofun⟩, ?_, ?_⟩
    · rintro p ⟨⟩
      rfl
    · rintro p q ⟨⟩ ⟨⟩
      exact ⟨second, rfl⟩

/-- Settles O18: bands are fixed, and the visible lines are consecutive around a ring longer than they are many. -/
theorem rollingLinesDistinct : Obligations.RollingLinesDistinct := by
  intro d top visible staging bottom base geometry some_staging some_visible
  have units : d.units = top + visible + bottom := by simp only [Definition.units, geometry]
  have ring : d.ring = visible + staging := by simp only [Definition.ring, geometry]
  have target (x : Nat) : d.targetPosition x = (x + visible) % (visible + staging) := by
    simp only [Definition.targetPosition, geometry]
  have line (x v : Nat) : d.physicalLine x v =
      if v < top then v else if v < top + visible then top + (x + v - top) % (visible + staging) else v + staging := by
    simp only [Definition.physicalLine, geometry]
  have lines (x v : Nat) : (v < top ∧ d.physicalLine x v = v) ∨
      ((top ≤ v ∧ v < top + visible) ∧ d.physicalLine x v = top + (x + v - top) % (visible + staging)) ∨
      (top + visible ≤ v ∧ d.physicalLine x v = v + staging) := by
    rw [line]
    split
    · exact .inl ⟨by assumption, rfl⟩
    split
    · exact .inr (.inl ⟨by omega, rfl⟩)
    · exact .inr (.inr ⟨by omega, rfl⟩)
  have position (x v : Nat) : d.ringPosition x v =
      if top ≤ v ∧ v < top + visible then some ((x + v - top) % (visible + staging)) else none := by
    simp only [Definition.ringPosition, geometry]
  have inRing (x v : Nat) : (x + v - top) % (visible + staging) < visible + staging := Nat.mod_lt _ (by omega)
  refine ⟨fun x v h => ?_, fun x v h => ?_, fun x v v' h h' same => ?_, fun x v h => ?_, fun x v L q hL hq => ?_,
    fun x => ?_⟩
  · rw [line, if_pos h]
  · rw [line, if_neg (by omega), if_neg (by omega)]
  · have bound := inRing x v
    have bound' := inRing x v'
    rw [units] at h h'
    rcases lines x v with ⟨band, is⟩ | ⟨⟨above, below⟩, is⟩ | ⟨band, is⟩ <;>
      rcases lines x v' with ⟨band', is'⟩ | ⟨⟨above', below'⟩, is'⟩ | ⟨band', is'⟩ <;> rw [is, is'] at same
    case inr.inl.inr.inl =>
      have offsets : (x + (v - top)) % (visible + staging) = (x + (v' - top)) % (visible + staging) := by
        rw [← Nat.add_sub_assoc above, ← Nat.add_sub_assoc above']
        exact Nat.add_left_cancel same
      have := ring_injective (by omega) (by omega) offsets
      omega
    all_goals omega
  · have bound := inRing x v
    rw [units] at h
    rcases lines x v with ⟨_, is⟩ | ⟨_, is⟩ | ⟨_, is⟩ <;> omega
  · rw [position] at hq
    split at hq
    · next within =>
      obtain rfl := Option.some.inj hq
      rw [ring]
      intro same
      have offsets : (x + (v - top)) % (visible + staging) = (x + (L + visible)) % (visible + staging) := by
        rw [← Nat.add_sub_assoc within.1, same, Nat.add_assoc]
      have := ring_injective (by omega) (by omega) offsets
      omega
    · cases hq
  · rw [position, if_pos (by omega), target]
    congr 2
    omega

end Sys2Proof
end

section
/-! SUPPORT. The tests of section 1.3 on a head request, and the entries that classification makes. -/

namespace Sys2Proof.Machine

/-! ### Entries of a response list -/

/-- Two changes of one entry, the first keeping its number, are one. -/
theorem State.updEntry_updEntry (s : State) (m : Fin 16) (id : Nat) {f g : Entry → Entry} (h : ∀ x, (f x).id = x.id) :
    (s.updEntry m id f).updEntry m id g = s.updEntry m id (fun x => g (f x)) := by
  have each (x : Entry) : (if (if x.id = id then f x else x).id = id then g (if x.id = id then f x else x)
      else if x.id = id then f x else x) = if x.id = id then g (f x) else x := by
    by_cases hx : x.id = id <;> simp [hx, h]
  simp [State.updEntry, upd, Function.comp_def, each]

/-- An entry that joins at the end of a list that has no entry of its number is the one that a change finds. -/
theorem map_append_fresh {l : List Entry} {e : Entry} {id : Nat} (fresh : ∀ x ∈ l, x.id ≠ id) (is : e.id = id)
    (f : Entry → Entry) : (l ++ [e]).map (fun x => if x.id = id then f x else x) = l ++ [f e] := by
  have rest : l.map (fun x => if x.id = id then f x else x) = l :=
    (List.map_congr_left (fun x hx => if_neg (fresh x hx))).trans (List.map_id l)
  rw [List.map_append, rest, List.map_singleton, if_pos is]

theorem State.admitted_updEntry {s : State} {m : Fin 16} {r : Request} {w : Fin 16} {wait wait' : Wait}
    {pieces pieces' : List Piece} {closing closing' : Bool} (fresh : ∀ e ∈ s.responses[m], e.id ≠ s.nextId)
    {f : Entry → Entry} (h : f { newEntry s.nextId r (some w) (.waiting wait) pieces with closing := closing } =
      { newEntry s.nextId r (some w) (.waiting wait') pieces' with closing := closing' }) :
    (s.admitted m r w wait pieces closing).updEntry m s.nextId f = s.admitted m r w wait' pieces' closing' := by
  have list : (s.admitted m r w wait pieces closing).responses[m] = s.responses[m] ++
      [{ newEntry s.nextId r (some w) (.waiting wait) pieces with closing := closing }] := Vector.getElem_set_self _
  simp only [State.updEntry, upd]
  rw [list, map_append_fresh fresh rfl, h]
  simp [State.admitted]

theorem State.passed_updEntry {s : State} {m : Fin 16} {r : Request} {created unresolved created' unresolved' : Nat}
    (fresh : ∀ e ∈ s.responses[m], e.id ≠ s.nextId) {f : Entry → Entry}
    (h : f { newEntry s.nextId r none (.waiting .mapped) [plainPiece r.addr r.beats r.data 0] with
          created := created, unresolved := unresolved } =
      { newEntry s.nextId r none (.waiting .mapped) [plainPiece r.addr r.beats r.data 0] with
          created := created', unresolved := unresolved' }) :
    (s.passed m r created unresolved).updEntry m s.nextId f = s.passed m r created' unresolved' := by
  have list : (s.passed m r created unresolved).responses[m] = s.responses[m] ++
      [{ newEntry s.nextId r none (.waiting .mapped) [plainPiece r.addr r.beats r.data 0] with
          created := created, unresolved := unresolved }] := Vector.getElem_set_self _
  simp only [State.updEntry, upd]
  rw [list, map_append_fresh fresh rfl, h]
  simp [State.passed]

/-- The entry that joins is the master's current request. -/
theorem State.admitted_current {s : State} {m : Fin 16} (idle : s.current m = none) (r : Request) (w : Fin 16)
    (wait : Wait) (pieces : List Piece) (closing : Bool) : (s.admitted m r w wait pieces closing).current m =
      some { newEntry s.nextId r (some w) (.waiting wait) pieces with closing := closing } := by
  have list : (s.admitted m r w wait pieces closing).responses[m] = s.responses[m] ++
      [{ newEntry s.nextId r (some w) (.waiting wait) pieces with closing := closing }] := Vector.getElem_set_self _
  unfold State.current at idle ⊢
  rw [list, List.find?_append, idle]
  rfl

theorem State.passed_current {s : State} {m : Fin 16} (idle : s.current m = none) (r : Request)
    (created unresolved : Nat) : (s.passed m r created unresolved).current m =
      some { newEntry s.nextId r none (.waiting .mapped) [plainPiece r.addr r.beats r.data 0] with
        created := created, unresolved := unresolved } := by
  have list : (s.passed m r created unresolved).responses[m] = s.responses[m] ++
      [{ newEntry s.nextId r none (.waiting .mapped) [plainPiece r.addr r.beats r.data 0] with
          created := created, unresolved := unresolved }] := Vector.getElem_set_self _
  unfold State.current at idle ⊢
  rw [list, List.find?_append, idle]
  rfl

theorem enterPassthrough_popIntake (m : Fin 16) (r : Request) (s : State) :
    enterPassthrough m r (popIntake m s) = s.passed m r 0 0 := by
  simp [enterPassthrough, enter, State.passed, upd, newEntry]

/-! ### What classification does to the intake queues (R4) -/

theorem Works.queues {s t : State} (h : Works s t) : (t.intake, t.onBus) = (s.intake, s.onBus) :=
  Prod.ext h.intake h.onBus

theorem windowRequest_queues (m w : Fin 16) (r : Request) (s : State) :
    ((windowRequest m w r s).intake, (windowRequest m w r s).onBus) = (s.intake, s.onBus) := by
  unfold windowRequest
  split
  · rfl
  unfold mapWindowRequest
  split
  · rfl
  split
  · split
    · exact (works_placeWrite m w _).queues
    · rfl
  · split
    · unfold mapSlottedRead
      split
      · exact (works_captureSlots ..).queues
      · exact (works_captureSlots ..).queues.trans (works_consumerRead ..).queues
      · exact (works_captureSlots ..).queues
    · unfold mapRollingRead
      split
      · rfl
      · exact (works_captureReads ..).queues.trans (works_consumerRead ..).queues
      · exact (works_captureReads ..).queues
    · rfl

theorem watchedWrite_queues (m : Fin 16) (r : Request) (s : State) :
    ((watchedWrite m r s).intake, (watchedWrite m r s).onBus) = (s.intake, s.onBus) := by
  have told : Works (enterPassthrough m r s)
      (forWindows (fun w t => reportCommitWord w m s.nextId r t) (enterPassthrough m r s)) :=
    .forWindows _ (fun w t => works_reportCommitWord w m s.nextId r t) _
  unfold watchedWrite reportWatched
  generalize forWindows _ (enterPassthrough m r s) = t at told ⊢
  unfold reportConsumedIndex
  split
  · exact told.queues
  split
  · exact told.queues
  split
  · exact told.queues
  split <;> exact told.queues

theorem classifyHead_queues (m : Fin 16) (r : Request) (s : State) :
    ((classifyHead m r s).intake, (classifyHead m r s).onBus) = (s.intake, s.onBus) := by
  unfold classifyHead
  split
  · rfl
  · split
    · exact watchedWrite_queues m r s
    · exact windowRequest_queues m _ r s
  · split
    · exact watchedWrite_queues m r s
    · rfl

/-! ### Touched windows (R8) -/

theorem mem_touchedWindows {r : Request} {s : State} {w : Fin 16} :
    w ∈ touchedWindows r s ↔ ∃ g, s.range w = some g ∧ touches (requestRange r) g = true := by
  simp [touchedWindows, mem_windowNumbers, Option.any_eq_true]

end Sys2Proof.Machine

namespace Sys2Proof
open Machine

/-- Settles O4: the head leaves by `popIntake`, and the tests that hold it back come first. -/
theorem headOfLineRule : Obligations.HeadOfLineRule := by
  refine ⟨fun m r s may_take passes => ?_, fun m s held => ?_, fun m r rest s head one_page resetting touched => ?_⟩
  · by_cases crosses : crossesPage r = true
    · refine ⟨_, classification_of_crossesPage may_take crosses, ?_, ?_⟩
      · exact popIntake_intake m s
      · exact popIntake_onBus m s
    · have passes := passes.resolve_left crosses
      have queues := classifyHead_queues m r (popIntake m s)
      refine ⟨_, classification_eq may_take (Bool.eq_false_of_not_eq_true crosses) passes, ?_, ?_⟩
      · exact (congrArg Prod.fst queues).trans (popIntake_intake m s)
      · exact (congrArg Prod.snd queues).trans (popIntake_onBus m s)
  · refine congrArg Host.Outcome.next ?_
    unfold classify
    split
    · rfl
    next r rest head =>
    refine if_pos ?_
    rcases held with empty | ⟨e, he, waiting⟩ | full
    · rw [empty] at head
      cases head
    · have current : s.current m ≠ none := by
        simp only [State.current, ne_eq, List.find?_eq_none, not_forall]
        exact ⟨e, he, by simp [waiting]⟩
      simp [mayClassify, current]
    · simpa [mayClassify, Config.responseDepth] using fun _ => full
  · refine congrArg Host.Outcome.next ?_
    have touched : touchedWindows r s ≠ [] := by
      obtain ⟨w, range⟩ := touched
      exact List.ne_nil_of_mem (mem_touchedWindows.mpr range)
    simp only [classify, head, one_page]
    split
    · rfl
    · rw [if_neg Bool.false_ne_true, if_pos ⟨resetting, touched⟩]

/-- Settles O8: the head of the list of touched windows is the lowest-numbered of them; the other refusals are those of
the window's state and role. -/
theorem windowRefusals : Obligations.WindowRefusals := by
  refine ⟨fun m r w g s may_take one_page running range touched lowest outside => ?_, fun m r w d s head => ?_⟩
  · have inside : insideWindow r s = none := by
      refine List.find?_eq_none.mpr (fun w' _ => ?_)
      cases hg : s.range w' with
      | none => simp
      | some g' => simp [outside w' g' hg]
    have first : (touchedWindows r s).head? = some w := by
      refine List.head?_filter.trans ((find?_sorted Fin.val sorted_windowNumbers).mpr
        ⟨mem_windowNumbers w, by simp [range, touched], fun w' _ less => ?_⟩)
      cases hg : s.range w' with
      | none => rfl
      | some g' => exact lowest w' less g' hg
    obtain ⟨rest, list⟩ := List.head?_eq_some_iff.mp first
    rw [classification_eq may_take one_page (.inl running), classifyHead, popIntake_touched, popIntake_inside, inside, list]
    exact congrArg _ (refuseHead_popIntake ..)
  · have refused (reason : Reason) (refusal : stateRefusal s.windows[w].state r.kind = some reason) :
        exec (.classification m) s = .next (s.refused m r (some w) reason) := by
      rw [windowHead_classification head, windowRequest, popIntake_windows, refusal]
      exact congrArg _ (refuseHead_popIntake ..)
    refine ⟨fun state => refused _ ?_, fun state write => refused _ ?_, fun state => refused _ ?_,
      fun state write role => ?_⟩
    · rw [state]; rfl
    · rw [state, write]; rfl
    · rw [state]; rfl
    · have ⟨_, _, _, _, _, definition⟩ := head
      rw [windowHead_mapped head (by rw [state]; rfl), mapWindowRequest, popIntake_definition, definition]
      simp only [write, popIntake_role, role, if_false]
      exact congrArg _ (refuseHead_popIntake ..)

/-- Settles O6: the cases of the answer. -/
theorem answerStatusAndData : Obligations.AnswerStatusAndData := by
  refine ⟨fun e unresolved => ?_, fun e p data read resolved fresh pieces => ?_,
    fun e p q d₁ d₂ read resolved fresh pieces => ?_, fun e write resolved => ?_⟩
  · simp [Entry.settle, unresolved]
  · refine ⟨fun done => ?_, fun faulted => ?_⟩ <;>
      simp [Entry.settle, Entry.answer, Entry.anyFault, Piece.readData, *]
  · refine ⟨fun first second => ?_, fun first second => ?_, fun first second => ?_, fun first second => ?_⟩ <;>
      simp [Entry.settle, Entry.answer, Entry.anyFault, Piece.readData, *]
  · have stage : e.settle.stage = .complete e.answer := if_pos resolved
    refine ⟨fun faulted => ?_, fun clean made untaken => ?_, fun clean taken => ?_⟩ <;>
      rw [stage, Entry.answer, write]
    · have fault : e.anyFault = true := by simpa [Entry.anyFault] using faulted
      rw [if_pos fault]
    · have fault : e.anyFault = false := by simpa [Entry.anyFault] using clean
      simp [fault, made, untaken]
    · have fault : e.anyFault = false := by simpa [Entry.anyFault] using clean
      rcases taken with none_made | taken
      · simp [fault, none_made]
      · simp [fault, taken]

/-- Settles O19: the taking of an accepted index. -/
theorem consumedIndexStoreTaken : Obligations.ConsumedIndexStoreTaken := by
  intro m r d b s may_take one_page outside store set defined includes beat apart lanes below range
  rw [classification_of_indexStore may_take one_page outside store set defined includes beat apart]
  have full : lanesFull b = true := by simp [lanesFull, lanes]
  have accepted : s.notice.acceptsIndex d b.data.toNat = true := by
    simp [NoticeUnit.acceptsIndex, indexGap, below, range]
  have attention : ({ s.notice with consumed := b.data.toNat } : NoticeUnit).attention =
      (decide (s.notice.ring = .faulted) || decide (s.notice.writtenBack ≠ b.data.toNat)) := by
    unfold NoticeUnit.attention
    cases hr : s.notice.ring with
    | unset => exact absurd hr set
    | active => simp
    | faulted => simp
  simp [NoticeUnit.takeIndex, full, accepted, NoticeUnit.driveAttn, attention]

end Sys2Proof
end

section
/-! SUPPORT. Window requests of LIVE and HALTED windows: the mapping of reads and writes, with the counts of the slots and
ring positions that they reach. -/

namespace Sys2Proof.Machine

/-! ### Changes of slot records -/

theorem SlotUnit.onSlot_comm (u : SlotUnit) (i j : Fin 4) {f g : Slot → Slot} (h : ∀ x, g (f x) = f (g x)) :
    (u.onSlot i f).onSlot j g = (u.onSlot j g).onSlot i f := by
  by_cases same : i = j
  · subst same
    rw [SlotUnit.onSlot_onSlot, SlotUnit.onSlot_onSlot]
    exact congrArg _ (funext h)
  · have apart : (i : Nat) ≠ j := fun e => same (Fin.ext e)
    simp only [SlotUnit.onSlot, Fin.getElem_fin, Vector.getElem_set_ne _ _ apart, Vector.getElem_set_ne _ _ apart.symm]
    rw [Vector.set_comm _ _ apart]

theorem SlotUnit.onSlot_congr {u : SlotUnit} {i : Fin 4} {x : Slot} {f g : Slot → Slot} (is : u.slots[i] = some x)
    (h : f x = g x) : u.onSlot i f = u.onSlot i g := by
  unfold SlotUnit.onSlot
  rw [is, Option.map_some, Option.map_some, h]

theorem State.slot_onSlot (s : State) (w : Fin 16) (i : Fin 4) (f : Slot → Slot) (v : Fin 16) (j : Fin 4) :
    (s.onSlots w (fun u => u.onSlot i f)).slot v j = if v = w ∧ j = i then (s.slot v j).map f else s.slot v j := by
  simp only [State.slot, State.onSlots, SlotUnit.onSlot, Fin.getElem_fin]
  by_cases hv : v = w
  · subst hv
    rw [Vector.getElem_set_self]
    cases hs : s.slots[(v : Nat)] with
    | none => simp
    | some u =>
      by_cases hj : j = i
      · subst hj
        simp
      · simp [hj, Vector.getElem_set_ne, Ne.symm (Fin.val_ne_of_ne hj)]
  · rw [Vector.getElem_set_ne _ _ (Ne.symm (Fin.val_ne_of_ne hv)), if_neg (fun h => hv h.1)]

/-- A change of a slot record that keeps its block map keeps every map. -/
theorem State.work_onSlot {f : Slot → Slot} (h : ∀ x, (f x).work = x.work) (s : State) (w : Fin 16) (i : Fin 4)
    (v : Fin 16) (j : Fin 4) : (s.onSlots w (fun u => u.onSlot i f)).work v j = s.work v j := by
  unfold State.work
  rw [State.slot_onSlot]
  split
  · cases s.slot v j <;> simp [h]
  · rfl

/-! ### Requests that the window's state does not refuse -/

theorem stateRefusal_read {x : WinState} (h : x = .live ∨ x = .halted) : stateRefusal x .read = none := by
  rcases h with rfl | rfl <;> rfl

/-- A READ of a slotted window is mapped by the slot manager. -/
theorem classification_slottedRead {m : Fin 16} {r : Request} {w : Fin 16} {d : Definition} {u : SlotUnit} {s : State}
    (head : s.windowHead m r w d) (open_window : s.windows[w].state = .live ∨ s.windows[w].state = .halted)
    (read : r.kind = .read) (slots : s.slots[w] = some u) :
    exec (.classification m) s = .next (mapSlottedRead m w d u r (popIntake m s)) := by
  have ⟨_, _, _, _, _, definition⟩ := head
  rw [windowHead_mapped head (by rw [read]; exact stateRefusal_read open_window), mapWindowRequest, popIntake_definition,
    definition]
  simp only [read]
  rw [popIntake_slots, slots]

/-- A READ of a rolling window is mapped by the roll unit. -/
theorem classification_rollingRead {m : Fin 16} {r : Request} {w : Fin 16} {d : Definition} {u : RollState} {s : State}
    (head : s.windowHead m r w d) (open_window : s.windows[w].state = .live ∨ s.windows[w].state = .halted)
    (read : r.kind = .read) (slots : s.slots[w] = none) (rolls : s.rolls[w] = some u) :
    exec (.classification m) s = .next (mapRollingRead m w d u r (popIntake m s)) := by
  have ⟨_, _, _, _, _, definition⟩ := head
  rw [windowHead_mapped head (by rw [read]; exact stateRefusal_read open_window), mapWindowRequest, popIntake_definition,
    definition]
  simp only [read]
  rw [popIntake_slots, slots, popIntake_rolls, rolls]

/-- A producer's WRITE to a LIVE window is placed. -/
theorem classification_producerWrite {m : Fin 16} {r : Request} {w : Fin 16} {d : Definition} {s : State}
    (head : s.windowHead m r w d) (live : s.windows[w].state = .live) (write : r.kind = .write)
    (role : s.role d m = .producer) :
    exec (.classification m) s = .next (placeWrite m w (s.admitted m r w .mapped [] false)) := by
  have ⟨_, _, _, _, _, definition⟩ := head
  rw [windowHead_mapped head (by rw [live, write]; rfl), mapWindowRequest, popIntake_definition, definition]
  simp only [write, popIntake_role, role, if_true]
  rw [enterWaiting_popIntake]

/-! ### Capture (R49) -/

/-- A slot with `n` more pieces waiting for it. -/
def Slot.expect (n : Nat) (x : Slot) : Slot := { x with waiting := x.waiting + n }

theorem SlotUnit.onSlot_expect_zero (u : SlotUnit) (i : Fin 4) : u.onSlot i (Slot.expect 0) = u :=
  u.onSlot_id i _ (fun _ => rfl)

theorem SlotUnit.onSlot_expect_expect (u : SlotUnit) (i : Fin 4) (a b : Nat) :
    (u.onSlot i (Slot.expect a)).onSlot i (Slot.expect b) = u.onSlot i (Slot.expect (a + b)) := by
  rw [SlotUnit.onSlot_onSlot]
  exact congrArg _ (funext fun x => by simp only [Slot.expect, Nat.add_assoc])

theorem Slot.expect_comm (a b : Nat) (x : Slot) : (x.expect a).expect b = (x.expect b).expect a := by
  simp only [Slot.expect, Nat.add_right_comm]

/-- The pieces of a request that reach two slots are counted in each. -/
theorem captureSlots_two (w : Fin 16) (d : Definition) (i f : Fin 4) (test : Piece → Bool) (pieces : List Piece)
    (s : State) : captureSlots w (pieces.map (fun p => mapToSlot d (if test p then f else i) p)) s =
      s.onSlots w (fun u => (u.onSlot i (Slot.expect (pieces.countP (fun p => !test p)))).onSlot f
        (Slot.expect (pieces.countP test))) := by
  induction pieces generalizing s with
  | nil =>
    simp only [List.map_nil, List.countP_nil, SlotUnit.onSlot_expect_zero]
    simp [captureSlots, State.onSlots]
  | cons p pieces ih =>
    have step : captureSlots w ((p :: pieces).map (fun p => mapToSlot d (if test p then f else i) p)) s =
        captureSlots w (pieces.map (fun p => mapToSlot d (if test p then f else i) p))
          (s.onSlots w (fun u => u.onSlot (if test p then f else i) (Slot.expect 1))) := rfl
    rw [step, ih, State.onSlots_onSlots]
    refine congrArg _ (funext fun u => ?_)
    cases hp : test p with
    | true =>
      have others : (p :: pieces).countP (fun p => !test p) = pieces.countP (fun p => !test p) := by simp [hp]
      rw [if_pos rfl, u.onSlot_comm f i (Slot.expect_comm 1 _), SlotUnit.onSlot_expect_expect, List.countP_cons_of_pos hp, others,
        Nat.add_comm 1]
    | false =>
      have others : (p :: pieces).countP (fun p => !test p) = pieces.countP (fun p => !test p) + 1 := by simp [hp]
      rw [if_neg Bool.false_ne_true, SlotUnit.onSlot_expect_expect, others,
        List.countP_cons_of_neg (by simp [hp]), Nat.add_comm 1]

/-- Whether a producer's read of a block goes to the backfill source: the block is not yet brought across (R72). -/
def uncopiedIn (map : List BlockState) (b : Nat) : Bool := decide (map[b]? = some .needsCopy) || decide (map[b]? = some .copying)

theorem uncopied_getD (map : List BlockState) (b : Nat) : (map.getD b .notWritten).uncopied = uncopiedIn map b := by
  rw [List.getD_eq_getElem?_getD, uncopiedIn]
  cases map[b]? with
  | none => rfl
  | some x => cases x <;> rfl

/-! ### Producer writes (R51, R94) -/

/-- A write that has just entered is what its master's placing is about. -/
theorem State.admitted_waits {m : Fin 16} {s : State} (fresh : ∀ e ∈ s.responses[m], e.id ≠ s.nextId) (r : Request)
    (w : Fin 16) (wait : Wait) : (s.admitted m r w .mapped [] false).updEntry m s.nextId
      (fun x => { x with stage := .waiting wait }) = s.admitted m r w wait [] false := s.admitted_updEntry fresh rfl

@[simp] theorem State.admitted_commits (s : State) (m : Fin 16) (r : Request) (w : Fin 16) (wait : Wait)
    (pieces : List Piece) (closing : Bool) : (s.admitted m r w wait pieces closing).commits = s.commits :=
  popIntake_commits m s

@[simp] theorem State.admitted_slots (s : State) (m : Fin 16) (r : Request) (w : Fin 16) (wait : Wait)
    (pieces : List Piece) (closing : Bool) : (s.admitted m r w wait pieces closing).slots = s.slots := popIntake_slots m s

@[simp] theorem State.admitted_rolls (s : State) (m : Fin 16) (r : Request) (w : Fin 16) (wait : Wait)
    (pieces : List Piece) (closing : Bool) : (s.admitted m r w wait pieces closing).rolls = s.rolls := popIntake_rolls m s

@[simp] theorem State.admitted_definition (s : State) (m : Fin 16) (r : Request) (w : Fin 16) (wait : Wait)
    (pieces : List Piece) (closing : Bool) (v : Fin 16) :
    (s.admitted m r w wait pieces closing).definition v = s.definition v := by
  unfold State.definition
  by_cases h : w = v
  · subst h
    show (s.windows.set w { s.windows[w] with waiting := s.windows[w].waiting + 1 })[w].definition = _
    rw [Fin.getElem_fin, Vector.getElem_set_self]
  · exact congrArg Window.definition (Vector.getElem_set_ne w.isLt v.isLt (fun e => h (Fin.ext e)))

@[simp] theorem State.admitted_work (s : State) (m : Fin 16) (r : Request) (w : Fin 16) (wait : Wait)
    (pieces : List Piece) (closing : Bool) (v : Fin 16) (i : Fin 4) :
    (s.admitted m r w wait pieces closing).work v i = s.work v i := by
  simp only [State.work, State.slot, State.admitted_slots]

/-- The placing of a write that has just entered while the fence is up. -/
theorem placeWrite_fenced {m : Fin 16} {r : Request} {w : Fin 16} {s : State} (idle : s.current m = none)
    (fresh : ∀ e ∈ s.responses[m], e.id ≠ s.nextId) (fence : s.commits[w].fence = true) :
    placeWrite m w (s.admitted m r w .mapped [] false) = s.admitted m r w .fence [] false := by
  rw [placeWrite, State.admitted_current idle, State.admitted_commits]
  exact (if_pos fence).trans (s.admitted_waits fresh r w .fence)

/-- The placing of a write that has just entered a slotted window with no FILLING slot. -/
theorem placeWrite_unfilled {m : Fin 16} {r : Request} {w : Fin 16} {u : SlotUnit} {s : State}
    (idle : s.current m = none) (fresh : ∀ e ∈ s.responses[m], e.id ≠ s.nextId) (fence : s.commits[w].fence = false)
    (slots : s.slots[w] = some u) (unfilled : u.filling = none) :
    placeWrite m w (s.admitted m r w .mapped [] false) =
      if u.sealed = none then startTimer m w (s.admitted m r w (.slot true) [] false)
      else s.admitted m r w (.slot false) [] false := by
  rw [placeWrite, State.admitted_current idle, State.admitted_commits, State.admitted_slots, slots]
  simp only [fence, unfilled]
  rw [if_neg Bool.false_ne_true, ← s.admitted_waits fresh r w (.slot true), ← s.admitted_waits fresh r w (.slot false)]
  rfl

/-- The placing of a write that has just entered a slotted window with a FILLING slot. -/
theorem placeWrite_filling {m : Fin 16} {r : Request} {w : Fin 16} {u : SlotUnit} {i : Fin 4} {s : State}
    (idle : s.current m = none) (fence : s.commits[w].fence = false) (slots : s.slots[w] = some u)
    (filling : u.filling = some i) : placeWrite m w (s.admitted m r w .mapped [] false) =
      mapWaitingToSlot m w i (s.admitted m r w .mapped [] false) := by
  rw [placeWrite, State.admitted_current idle, State.admitted_commits, State.admitted_slots, slots]
  simp only [fence, filling]
  exact if_neg Bool.false_ne_true

/-- The placing of a write that has just entered a rolling window. -/
theorem placeWrite_rolling {m : Fin 16} {r : Request} {w : Fin 16} {s : State} (idle : s.current m = none)
    (fence : s.commits[w].fence = false) (slots : s.slots[w] = none) :
    placeWrite m w (s.admitted m r w .mapped [] false) =
      mapWaitingToRing m w (s.admitted m r w .mapped [] false) := by
  rw [placeWrite, State.admitted_current idle, State.admitted_commits, State.admitted_slots, slots]
  simp only [fence]
  exact if_neg Bool.false_ne_true

/-- What a write that has just entered becomes as it is mapped to the FILLING slot (R51). -/
theorem mapWaitingToSlot_admitted {m : Fin 16} {r : Request} {w : Fin 16} {d : Definition} {i : Fin 4} {k : Work}
    {s : State} (idle : s.current m = none) (fresh : ∀ e ∈ s.responses[m], e.id ≠ s.nextId)
    (definition : s.definition w = some d) (work : s.work w i = some k) :
    mapWaitingToSlot m w i (s.admitted m r w .mapped [] false) =
      listFirstNeedsCopy w i ((cut d r).map (mapWritePiece d k i)) (captureSlots w ((cut d r).map (mapWritePiece d k i))
        (stopTimer m (s.admitted m r w .mapped ((cut d r).map (mapWritePiece d k i)) (closesSlotted d r)))) := by
  rw [mapWaitingToSlot, State.admitted_current idle, State.admitted_definition, definition, State.admitted_work, work]
  exact congrArg (fun t => listFirstNeedsCopy w i _ (captureSlots w _ (stopTimer m t))) (s.admitted_updEntry fresh rfl)

/-- What a write that has just entered becomes as it is mapped to the lines (R94). -/
theorem mapWaitingToRing_admitted {m : Fin 16} {r : Request} {w : Fin 16} {d : Definition} {u : RollState}
    {s : State} (idle : s.current m = none) (fresh : ∀ e ∈ s.responses[m], e.id ≠ s.nextId)
    (definition : s.definition w = some d) (rolls : s.rolls[w] = some u) :
    mapWaitingToRing m w (s.admitted m r w .mapped [] false) =
      if ((cut d r).map (mapLineWrite d u)).any (fun p => decide (p.cond = .visibility)) then
        startTimer m w (s.admitted m r w .mapped ((cut d r).map (mapLineWrite d u)) (closesRolling d r))
      else s.admitted m r w .mapped ((cut d r).map (mapLineWrite d u)) (closesRolling d r) := by
  have mapped : (s.admitted m r w .mapped [] false).updEntry m s.nextId (fun x =>
      { x with stage := .waiting .mapped, pieces := (cut d r).map (mapLineWrite d u), closing := closesRolling d r }) =
      s.admitted m r w .mapped ((cut d r).map (mapLineWrite d u)) (closesRolling d r) := s.admitted_updEntry fresh rfl
  rw [mapWaitingToRing, State.admitted_current idle, State.admitted_definition, definition, State.admitted_rolls, rolls,
    ← mapped]
  rfl

theorem captureSlots_writes (w : Fin 16) (d : Definition) (k : Work) (i : Fin 4) (pieces : List Piece) (s : State) :
    captureSlots w (pieces.map (mapWritePiece d k i)) s = captureSlots w (pieces.map (mapToSlot d i)) s := by
  unfold captureSlots
  rw [List.foldl_map, List.foldl_map]
  rfl

/-- A write without a copy wait has no block to list. -/
theorem listFirstNeedsCopy_clear {pieces : List Piece} (h : ∀ p ∈ pieces, p.cond = .clear) (w : Fin 16) (i : Fin 4)
    (s : State) : listFirstNeedsCopy w i pieces s = s := by
  have unlisted : pieces.find? (fun p => decide (p.cond = .copyWait) &&
      decide (s.blockState w i p.unit = some .needsCopy)) = none :=
    List.find?_eq_none.mpr (fun p hp => by simp [h p hp])
  rw [listFirstNeedsCopy, unlisted]

theorem listFirstNeedsCopy_one {p : Piece} {w : Fin 16} {i : Fin 4} {s : State} (cond : p.cond = .copyWait)
    (needs : s.blockState w i p.unit = some .needsCopy) :
    listFirstNeedsCopy w i [p] s = addUrgent ⟨w, i, p.unit⟩ s := by
  simp [listFirstNeedsCopy, cond, needs]

/-- A busy copier only lists the block (R75). -/
theorem addUrgent_busy {u : Urgent} {s : State} (running : s.link.part = .running) (busy : s.copier.copy.isSome = true) :
    addUrgent u s = { s with
      copier := if u ∈ s.copier.urgent then s.copier else { s.copier with urgent := s.copier.urgent ++ [u] } } := by
  obtain ⟨y, copy⟩ := Option.isSome_iff_exists.mp busy
  unfold addUrgent
  by_cases listed : u ∈ s.copier.urgent
  · rw [if_pos (.inr listed), if_pos listed]
  · rw [if_neg (by simp [running, listed]), if_neg listed, kickCopier, if_neg (by simp [State.updCopier, running])]
    simp [State.updCopier, copy]

theorem cond_of_mem_cut {d : Definition} {r : Request} {p : Piece} (h : p ∈ cut d r) : p.cond = .clear := by
  unfold cut at h
  extract_lets b n at h
  split at h
  · rw [List.mem_singleton.mp h]; rfl
  · rcases List.mem_pair.mp h with rfl | rfl <;> rfl

end Sys2Proof.Machine

namespace Sys2Proof
open Machine

/-- Settles O11: a bystander's pieces all reach the front; a producer's are told apart by the block map. -/
theorem slottedReadMapped : Obligations.SlottedReadMapped := by
  intro m r w d u s head open_window read slots
  rw [classification_slottedRead head open_window read slots, mapSlottedRead, popIntake_role]
  have front : captureSlots w ((cut d r).map (mapToSlot d u.front))
      (enterWaiting m r w .mapped ((cut d r).map (mapToSlot d u.front)) (popIntake m s)) =
      (s.admitted m r w .mapped ((cut d r).map (mapToSlot d u.front)) false).onSlots w
        (fun v => v.onSlot u.front (fun x => { x with waiting := x.waiting + (cut d r).length })) := by
    rw [captureSlots_same, enterWaiting_popIntake]
  refine ⟨fun role => ?_, fun i k f role filling work source => ?_⟩
  · rcases role with role | ⟨role, unfilled⟩ <;> rw [role] <;> refine congrArg _ ?_
    · exact front
    · simp only [unfilled, producerReadSlot]
      exact front
  · rw [role]
    refine congrArg _ ?_
    have slot (p : Piece) : producerReadSlot u (u.filling.bind ((popIntake m s).work w)) p =
        if uncopiedIn k.map p.unit then f else i := by
      simp only [producerReadSlot, filling, Option.bind_some, popIntake_work, work, uncopied_getD, source]
    have test (p : Piece) : (uncopiedIn k.map p.unit = true) =
        (k.map[p.unit]? = some .needsCopy ∨ k.map[p.unit]? = some .copying) := by simp [uncopiedIn]
    simp only [slot, captureSlots_two, enterWaiting_popIntake, ← test]
    simp only [uncopiedIn, Bool.not_or, ← decide_not, ne_eq]
    rfl

/-- Settles O12: such a read makes no frame start and no pin. -/
theorem consumerReadFollowsItsPin : Obligations.ConsumerReadFollowsItsPin := by
  intro m r w d u c b v s head open_window read slots role bound line view i pinned
  have started : startsFrame b.source v (firstUnit d r) = false := by simp [startsFrame, line]
  have kept : v.state ≠ .unpinned := by
    rcases pinned with ⟨g, h⟩ | ⟨h, _⟩ <;> rw [h] <;> nofun
  have viewed : consumerRead w c (firstUnit d r) (lastUnit d r) (popIntake m s) = (popIntake m s).updView w c
      (fun v => { v with timer := if b.idle = 0 then v.timer else some s.timebase }) := by
    simp only [consumerRead, popIntake_consumers, bound, popIntake_view, view, started]
    rw [if_neg Bool.false_ne_true, if_neg kept, if_neg (by rw [line]; decide),
      restartIdle_eq (by rw [popIntake_consumers]; exact bound), popIntake_timebase]
  have slot : consumerSlot w c u.front ((popIntake m s).updView w c
      (fun v => { v with timer := if b.idle = 0 then v.timer else some s.timebase })) = i := by
    rw [consumerSlot, State.updView_get, popIntake_view, view]
    rcases pinned with ⟨g, h⟩ | ⟨h, front⟩ <;> simp [h]
    exact front
  rw [classification_slottedRead head open_window read slots, mapSlottedRead, popIntake_role, role]
  simp only [viewed, slot, captureSlots_same]
  rw [← enterWaiting_popIntake]
  rfl

/-- Settles O15: the two waits of a write that is not mapped. -/
theorem producerWriteWaitsUnmapped : Obligations.ProducerWriteWaitsUnmapped := by
  intro m r w d s head live write role fresh
  have ⟨⟨_, idle, _⟩, _, _, _, _, definition⟩ := head
  rw [classification_producerWrite head live write role]
  refine ⟨fun fence => congrArg _ (placeWrite_fenced idle fresh fence), fun u fence slots unfilled => ?_⟩
  rw [placeWrite_unfilled idle fresh fence slots unfilled]
  refine ⟨fun none_sealed => ?_, fun one_sealed => by rw [if_neg one_sealed]⟩
  rw [if_pos none_sealed, startTimer, State.admitted_definition, definition]
  simp [State.admitted, upd]

/-- Settles O14: without a copy to wait for every piece is clear; with one, the block is listed. -/
theorem producerWriteMapped : Obligations.ProducerWriteMapped := by
  refine ⟨fun m r w d u i k s head live write role fence slots filling work blocks fresh => ?_,
    fun m r w d u i k p s head live write role fence slots filling work one needs copying fresh => ?_⟩ <;>
    have ⟨⟨_, idle, _⟩, _, running, _, _, definition⟩ := head <;>
    rw [classification_producerWrite head live write role, placeWrite_filling idle fence slots filling,
      mapWaitingToSlot_admitted idle fresh definition work, captureSlots_writes]
  · have clear : (cut d r).map (mapWritePiece d k i) = (cut d r).map (mapToSlot d i) := by
      refine List.map_congr_left (fun p hp => ?_)
      have copied : uncopiedIn k.map p.unit = false := by
        rcases blocks p hp with h | h | h <;> simp [uncopiedIn, h]
      simp only [mapWritePiece, uncopied_getD, copied, Bool.false_eq_true, if_false, ← cond_of_mem_cut hp]
      rfl
    rw [clear, captureSlots_same, listFirstNeedsCopy_clear]
    · simp [stopTimer, State.onSlots, State.admitted, upd, closesSlotted]
    · intro p hp
      obtain ⟨q, hq, rfl⟩ := List.mem_map.mp hp
      exact (cond_of_mem_cut hq :)
  · have cond : (mapWritePiece d k i p).cond = .copyWait := by simp [mapWritePiece, needs, BlockState.uncopied]
    have block : ((stopTimer m (s.admitted m r w .mapped [mapWritePiece d k i p] (closesSlotted d r))).onSlots w
        (fun u => u.onSlot i (fun x => { x with waiting := x.waiting + [p].length }))).blockState w i
          (mapWritePiece d k i p).unit = some .needsCopy := by
      have same : (stopTimer m (s.admitted m r w .mapped [mapWritePiece d k i p] (closesSlotted d r))).work w i = some k :=
        (s.admitted_work m r w .mapped [mapWritePiece d k i p] (closesSlotted d r) w i).trans work
      rw [State.blockState, State.work_onSlot (f := fun x => { x with waiting := x.waiting + [p].length }) (fun _ => rfl),
        same]
      exact needs
    rw [captureSlots_same, one, List.map_singleton, listFirstNeedsCopy_one cond block, addUrgent_busy]
    · simp [stopTimer, State.onSlots, State.admitted, upd, closesSlotted, mapWritePiece, mapToSlot, needs,
        BlockState.uncopied]
    · simpa [stopTimer, State.onSlots, State.admitted] using running
    · simpa [stopTimer, State.onSlots, State.admitted] using copying

/-- Settles O17: a piece on the target line is not clear unless the target is. -/
theorem rollingWriteMapped : Obligations.RollingWriteMapped := by
  intro m r w d u s head live write role fence slots rolls fresh visible
  have ⟨⟨_, idle, _⟩, _, _, _, _, definition⟩ := head
  rw [classification_producerWrite head live write role, placeWrite_rolling idle fence slots,
    mapWaitingToRing_admitted idle fresh definition rolls]
  have guarded (p : Piece) : (decide (d.ringPosition ((u.origin + 1) % d.ring) p.unit = some (d.targetPosition u.origin)) &&
      !u.clear d) = visible p := by
    simp only [visible, RollState.clear, Bool.not_and, decide_not, ne_eq]
  clear_value visible
  have pieces : (cut d r).map (mapLineWrite d u) = (cut d r).map (fun p =>
      { mapToLine d ((u.origin + 1) % d.ring) false p with cond := if visible p then .visibility else .clear }) := by
    refine List.map_congr_left (fun p _ => ?_)
    simp only [mapLineWrite, ← guarded]
  have any : ((cut d r).map (mapLineWrite d u)).any (fun p => decide (p.cond = .visibility)) = (cut d r).any visible := by
    rw [pieces, List.any_map]
    refine congrArg (fun f => (cut d r).any f) (funext fun p => ?_)
    cases hv : visible p <;> simp [hv]
  rw [any, pieces]
  split
  · rw [startTimer, State.admitted_definition, definition]
    simp [State.admitted, upd]
  · simp [State.admitted]

end Sys2Proof
end

section
/-! SUPPORT. The arrival of a commit at its window, from a watched store or elsewhere: it is discarded, queued or begun
(R124, R127, R128). -/

namespace Sys2Proof.Machine

/-! ### Begin and take (R128, R131) -/

/-- The writes that a begin puts into its drain set are those that R128 names. -/
theorem Entry.joinsDrain_eq (w : Fin 16) (e : Entry) : e.joinsDrain w = e.drains w := by
  unfold Entry.joinsDrain Entry.drains Entry.isWriteOf Entry.inFenceWait
  cases e.stage with
  | waiting x =>
    cases x with
    | slot timed => cases timed <;> simp
    | _ => simp
  | _ => simp

theorem drainSetSize_eq (w : Fin 16) (s : State) : drainSetSize w s = s.drainCount w := by
  simp only [drainSetSize, State.drainCount, funext (Entry.joinsDrain_eq w)]

theorem beginCommit_eq (w : Fin 16) (c : Commit) (s : State) : beginCommit w c s = s.begun w s.commits[w].queue c := by
  have marked : Entry.enterDrain w = fun e => if e.drains w then { e with inDrain := true } else e := by
    funext e
    rw [Entry.enterDrain, Entry.joinsDrain_eq]
  simp only [beginCommit, drainSetSize_eq, marked, State.updCommits, State.begun, upd]

theorem takeCommit_undrained {w : Fin 16} {s : State} (h : drained s w = none) : takeCommit w s = s :=
  Function.iterate_fixed (by rw [takeNext, h]) _

theorem State.begun_commits (s : State) (w : Fin 16) (queue : List Commit) (c : Commit) :
    (s.begun w queue c).commits[w] = { queue := queue, current := some ⟨c, s.drainCount w⟩, fence := true } :=
  Vector.getElem_set_self _

/-- A commit that has begun is taken at once or waits for its drain set. -/
theorem State.begins_eq (s : State) (w : Fin 16) (queue : List Commit) (c : Commit) :
    s.begins w queue c = .next (takeCommit w (s.begun w queue c)) := by
  unfold State.begins
  split
  · rfl
  · next waits =>
    refine congrArg _ (takeCommit_undrained ?_).symm
    rw [drained, State.begun_commits]
    split
    · next h =>
      simp only [Option.some.injEq, InProgress.mk.injEq] at h
      exact absurd h.2 waits
    · rfl

/-! ### Arrival (R127) -/

theorem arrivalDiscard_running {s : State} (h : s.link.part = .running) (w : Fin 16) :
    arrivalDiscard s w = arrivalReason s.windows[w].state s.commits[w].queue.length := by
  unfold arrivalDiscard
  rw [if_neg (by rw [h]; decide)]
  cases s.windows[w].state <;> rfl

theorem arrive_discarded {w : Fin 16} {c : Commit} {s : State} {reason : Reason} (running : s.link.part = .running)
    (h : arrivalReason s.windows[w].state s.commits[w].queue.length = some reason) :
    arrive w c s = discardCommit w reason c s := by
  rw [arrive, arrivalDiscard_running running, h]

theorem arrivalReason_live {n : Nat} (h : n < 4) : arrivalReason .live n = none := if_neg (Nat.not_le.mpr h)

theorem arrive_queued {w : Fin 16} {c : Commit} {s : State} (running : s.link.part = .running)
    (live : s.windows[w].state = .live) (room : s.commits[w].queue.length < 4)
    (busy : s.commits[w].current.isSome = true ∨ s.commits[w].queue ≠ []) : arrive w c s =
      { s with commits := s.commits.set w { s.commits[w] with queue := s.commits[w].queue ++ [c] } } := by
  rw [arrive, arrivalDiscard_running running, live, arrivalReason_live room]
  refine if_neg (fun idle => ?_)
  rcases busy with busy | busy
  · rw [idle.1] at busy
    cases busy
  · exact busy idle.2

theorem arrive_begins {w : Fin 16} {c : Commit} {s : State} (running : s.link.part = .running)
    (live : s.windows[w].state = .live) (empty : s.commits[w].queue = []) (idle : s.commits[w].current = none) :
    Host.Outcome.next (arrive w c s) = s.begins w [] c := by
  rw [State.begins_eq, arrive, arrivalDiscard_running running, live, arrivalReason_live (by rw [empty]; decide)]
  have begun : s.begun w [] c = beginCommit w c s := empty ▸ (beginCommit_eq w c s).symm
  rw [begun]
  exact congrArg _ (if_pos ⟨idle, empty⟩)

/-! ### Watched stores (R9, R124) -/

/-- Of the windows that are told of something, one does something. -/
theorem forWindows_one {f : Fin 16 → State → State} {s : State} (w : Fin 16) (before : ∀ v ≠ w, f v s = s)
    (after : ∀ v ≠ w, f v (f w s) = f w s) : forWindows f s = f w s := by
  have idle (windows : List (Fin 16)) (t : State) (h : ∀ v ∈ windows, f v t = t) :
      windows.foldl (fun t v => f v t) t = t := by
    induction windows with
    | nil => rfl
    | cons v windows ih =>
      rw [List.foldl_cons, h v (List.mem_cons_self ..), ih (fun x hx => h x (List.mem_cons_of_mem v hx))]
  obtain ⟨front, back, split⟩ := List.append_of_mem (mem_windowNumbers w)
  have nodup : (front ++ w :: back).Nodup := split ▸ (by decide : windowNumbers.Nodup)
  obtain ⟨_, tail, apart⟩ := List.nodup_append.mp nodup
  have not_front : ∀ v ∈ front, v ≠ w := fun v hv => apart v hv w (List.mem_cons_self ..)
  have not_back : ∀ v ∈ back, v ≠ w := fun v hv e => (List.nodup_cons.mp tail).1 (e ▸ hv)
  rw [forWindows, split, List.foldl_append, idle front s (fun v hv => before v (not_front v hv)), List.foldl_cons,
    idle back _ (fun v hv => after v (not_back v hv))]

theorem reportConsumedIndex_of_apart {r : Request} {s : State}
    (h : ∀ n, s.notice.definition = some n → s.notice.ring = .unset ∨ includesWord r n.consumed = false) :
    reportConsumedIndex r s = s := by
  unfold reportConsumedIndex
  split
  · rfl
  next set =>
  split
  · rfl
  next d hd => exact if_pos ((h d hd).resolve_left set)

@[simp] theorem State.passed_windows (s : State) (m : Fin 16) (r : Request) (a b : Nat) :
    (s.passed m r a b).windows = s.windows := popIntake_windows m s

@[simp] theorem State.passed_definition (s : State) (m : Fin 16) (r : Request) (a b : Nat) (w : Fin 16) :
    (s.passed m r a b).definition w = s.definition w := popIntake_definition m s w

@[simp] theorem State.passed_notice (s : State) (m : Fin 16) (r : Request) (a b : Nat) :
    (s.passed m r a b).notice = s.notice := popIntake_notice m s

@[simp] theorem State.passed_link (s : State) (m : Fin 16) (r : Request) (a b : Nat) :
    (s.passed m r a b).link = s.link := popIntake_link m s

@[simp] theorem State.passed_timebase (s : State) (m : Fin 16) (r : Request) (a b : Nat) :
    (s.passed m r a b).timebase = s.timebase := popIntake_timebase m s

@[simp] theorem State.passed_commits (s : State) (m : Fin 16) (r : Request) (a b : Nat) :
    (s.passed m r a b).commits = s.commits := popIntake_commits m s

/-- A store that includes the commit word of one window, and no other watched word, is reported to the commit unit for
that window. -/
theorem classification_of_commitWord {m : Fin 16} {r : Request} {w : Fin 16} {d : Definition} {a : Addr} {s : State}
    (may_take : s.mayTake m r) (one_page : crossesPage r = false) (outside : touchedWindows r s = [])
    (store : r.kind = .write) (defined : s.windows[w].state ≠ .undefined) (definition : s.definition w = some d)
    (word : d.word = some a) (includes : includesWord r a = true)
    (others : ∀ w' d' a', w' ≠ w → s.windows[(w' : Fin 16)].state ≠ .undefined → s.definition w' = some d' →
      d'.word = some a' → includesWord r a' = false)
    (index : ∀ n, s.notice.definition = some n → s.notice.ring = .unset ∨ includesWord r n.consumed = false) :
    exec (.classification m) s = .next (reportCommitWord w m s.nextId r (s.passed m r 0 0)) := by
  have not_inside : insideWindow r s = none := by simp [insideWindow, outside]
  have watched : isWatchedWrite r s = true := by
    simp only [isWatchedWrite, store, decide_true, Bool.true_and, Bool.or_eq_true, List.any_eq_true]
    exact .inl ⟨w, mem_windowNumbers w, by simpa [definition, word, includes] using defined⟩
  have works := works_reportCommitWord w m s.nextId r (s.passed m r 0 0)
  have only := local_reportCommitWord w m s.nextId r (s.passed m r 0 0)
  have told : forWindows (fun v t => reportCommitWord v m s.nextId r t) (s.passed m r 0 0) =
      reportCommitWord w m s.nextId r (s.passed m r 0 0) := by
    refine forWindows_one w (fun v hv => ?_) (fun v hv => ?_) <;>
      refine reportCommitWord_of_apart (fun d' a' state given => others v d' a' hv ?_ ?_)
    · simpa using state
    · simpa using given
    · rw [only.windows v hv] at state
      simpa using state
    · rw [State.definition, works.definition v] at given
      simpa [State.definition] using given
  have same := NoticeUnit.SameRing.of_posts works.notice
  rw [classification_eq may_take one_page (.inr outside)]
  simp only [classifyHead, popIntake_touched, popIntake_inside, popIntake_watched, outside, not_inside, watched, if_true,
    watchedWrite, reportWatched, popIntake_nextId, enterPassthrough_popIntake, told]
  refine congrArg _ (reportConsumedIndex_of_apart (fun n hn => ?_))
  rw [works.notice.definition.1, State.passed_notice] at hn
  rw [same.ring, State.passed_notice]
  exact index n hn

/-- What a store to a commit word is, where the window has one. -/
theorem reportCommitWord_eq {m : Fin 16} {r : Request} {w : Fin 16} {d : Definition} {a : Addr} {b : Beat} {id : Nat}
    {s : State} (defined : s.windows[w].state ≠ .undefined) (definition : s.definition w = some d)
    (word : d.word = some a) (includes : includesWord r a = true) (beat : beatHolding r a = some b) :
    (commitWordStore d m b = none → reportCommitWord w m id r s = s) ∧
    (commitWordStore d m b = some none → reportCommitWord w m id r s = post (.badCommit w m) s) ∧
    ∀ action tag, commitWordStore d m b = some (some (action, tag)) → reportCommitWord w m id r s =
      arrive w { action := action, tag := tag, master := some m, trigger := some (m, id) }
        (s.updEntry m id Entry.addCommit) := by
  refine ⟨fun is => ?_, fun is => ?_, fun action tag is => ?_⟩ <;>
    simp only [reportCommitWord, definition, word, includes, beat, is] <;> exact if_neg defined

/-- R124: a store that is a commit. -/
theorem commitWordStore_good {d : Definition} {m : Fin 16} {b : Beat} (producer : d.producers.getLsbD m.val = true)
    (trigger : d.trigger = .commitWord) (lanes : b.lanes = 0xFF)
    (action : b.data.toNat / 2 ^ 16 % 256 = 1 ∨ (b.data.toNat / 2 ^ 16 % 256 = 2 ∧ d.isSlotted = true)) :
    commitWordStore d m b = some (some (if b.data.toNat / 2 ^ 16 % 256 = 1 then .publish else .abandon,
      BitVec.ofNat 16 b.data.toNat)) := by
  have full : lanesFull b = true := by simp [lanesFull, lanes]
  unfold commitWordStore commitAction commitTag
  rw [if_neg (by simp [producer]), if_neg (not_not.mpr trigger), if_neg (by simp [full])]
  rcases action with one | ⟨two, slotted⟩
  · rw [one]
    rfl
  · rw [two]
    exact if_pos slotted

/-- R124: a producer's store that is no commit is a BAD_COMMIT. -/
theorem commitWordStore_bad {d : Definition} {m : Fin 16} {b : Beat} (producer : d.producers.getLsbD m.val = true)
    (bad : ¬ (d.trigger = .commitWord ∧ b.lanes = 0xFF ∧
      (b.data.toNat / 2 ^ 16 % 256 = 1 ∨ (b.data.toNat / 2 ^ 16 % 256 = 2 ∧ d.isSlotted = true)))) :
    commitWordStore d m b = some none := by
  unfold commitWordStore
  rw [if_neg (by simp [producer])]
  split
  · rfl
  next trigger =>
  split
  · rfl
  next lanes =>
  have lanes : b.lanes = 0xFF := by simpa [lanesFull] using lanes
  have bad : ¬ (b.data.toNat / 2 ^ 16 % 256 = 1 ∨ (b.data.toNat / 2 ^ 16 % 256 = 2 ∧ d.isSlotted = true)) :=
    fun h => bad ⟨not_not.mp trigger, lanes, h⟩
  unfold commitAction
  split
  · rfl
  · next is =>
    split at is
    · cases is
    · next two => exact if_neg (fun slotted => bad (.inr ⟨two, slotted⟩))
    · cases is
  · next is =>
    split at is
    · next one => exact absurd (.inl one) bad
    · cases is
    · cases is

/-- A commit that is discarded as it arrives releases the store that it came from. -/
theorem discardCommit_passed {s : State} {m : Fin 16} {r : Request} (fresh : ∀ e ∈ s.responses[m], e.id ≠ s.nextId)
    (w : Fin 16) (reason : Reason) (action : Action) (tag : BitVec 16) :
    discardCommit w reason { action := action, tag := tag, master := some m, trigger := some (m, s.nextId) }
      (s.passed m r 1 1) =
      { s.passed m r 1 0 with notice := s.notice.take (.commitDiscarded w reason (some m) 0) s.timebase } := by
  have released : (s.passed m r 1 1).updEntry m s.nextId (Entry.resolve false) = s.passed m r 1 0 :=
    s.passed_updEntry fresh rfl
  rw [discardCommit, releaseTrigger, ← released]
  simp [post, State.updNotice, State.updEntry]

end Sys2Proof.Machine

namespace Sys2Proof
open Machine

/-- Settles O20: what the store is decides whether a commit arrives, and the window's state what becomes of it. -/
theorem commitWordStoreOutcomes : Obligations.CommitWordStoreOutcomes := by
  intro m r w d a b s may_take one_page outside store running defined definition word includes beat others index fresh
    isProducer action good commit discarded
  have told := classification_of_commitWord may_take one_page outside store defined definition word includes others index
  obtain ⟨ordinary, bad, good_store⟩ := reportCommitWord_eq (m := m) (r := r) (id := s.nextId) (s := s.passed m r 0 0)
    (by simpa using defined) (by simpa using definition) word includes beat
  have marked : (s.passed m r 0 0).updEntry m s.nextId Entry.addCommit = s.passed m r 1 1 := s.passed_updEntry fresh rfl
  have arrives (producer : isProducer) (is : good) :
      exec (.classification m) s = .next (arrive w commit (s.passed m r 1 1)) := by
    rw [told, good_store _ _ (commitWordStore_good producer is.1 is.2.1 is.2.2), marked]
  have running' : (s.passed m r 1 1).link.part = .running := by simpa using running
  have dropped (producer : isProducer) (is : good) (reason : Reason)
      (why : arrivalReason s.windows[w].state s.commits[w].queue.length = some reason) :
      exec (.classification m) s = .next (discarded reason) := by
    rw [arrives producer is, arrive_discarded running' (by simpa using why)]
    exact congrArg _ (discardCommit_passed fresh w reason _ _)
  refine ⟨fun other => ?_, fun producer is => ?_, fun producer is state => ?_, fun producer is state => ?_,
    fun producer is state => ?_, fun producer is live full => ?_, fun producer is live room busy => ?_,
    fun producer is live empty idle => ?_⟩
  · rw [told, ordinary (if_pos (Bool.eq_false_of_not_eq_true other))]
  · rw [told, bad (commitWordStore_bad producer is)]
    simp [post, State.updNotice]
  · exact dropped producer is _ (by rw [state]; rfl)
  · exact dropped producer is _ (by rw [state]; rfl)
  · exact dropped producer is _ (by rw [state]; rfl)
  · exact dropped producer is _ (by rw [live]; exact if_pos full)
  · rw [arrives producer is, arrive_queued running' (by simpa using live) (by simpa using room) (by simpa using busy)]
    simp
  · rw [arrives producer is]
    exact arrive_begins running' (by simpa using live) (by simpa using empty) (by simpa using idle)

end Sys2Proof
end

section
/-! SUPPORT. The issue arbiter (R17) and what each contender issues (R16, R77, R141 to R144), and the completion of
passthrough pieces and notice writes. -/

namespace Sys2Proof.Machine

/-! ### The arbiter (R17) -/

theorem rotationAfter_sorted (last : Contender) :
    (rotationAfter last).Pairwise (fun a b => turnsTo last a < turnsTo last b) := by
  cases last with
  | master m => revert m; decide
  | noticeWriter => decide
  | copier => decide

theorem mem_contenders (c : Contender) : c ∈ contenders := by
  cases c with
  | master m => exact List.mem_append_left _ (List.mem_map_of_mem (mem_masters m))
  | noticeWriter => exact List.mem_append_right _ (by simp)
  | copier => exact List.mem_append_right _ (by simp)

theorem mem_rotationAfter (last c : Contender) : c ∈ rotationAfter last := by
  have h := mem_contenders c
  rw [← List.take_append_drop (contenders.findIdx (fun c => decide (c = last)) + 1) contenders, List.mem_append] at h
  exact List.mem_append.mpr h.symm

theorem freePlace_eq_some {s : State} {i : Fin 32} :
    freePlace s = some i ↔ s.places[i] = none ∧ ∀ j < i, s.places[j] ≠ none := by
  rw [freePlace, find?_sorted Fin.val sorted_placeNumbers]
  simp [mem_placeNumbers]

/-- The grant goes to the contender, and into the place, that R17 names. -/
theorem grant_eq {s : State} {c : Contender} {i : Fin 32} (h : s.nextGrant c i) :
    exec .issueGrant s = .next (issueFor i c { s with lastGranted := c }) := by
  obtain ⟨free, contending, first⟩ := h
  have turn : (rotationAfter s.lastGranted).find? (contends s) = some c := by
    refine (find?_sorted (turnsTo s.lastGranted) (rotationAfter_sorted s.lastGranted)).mpr
      ⟨mem_rotationAfter _ c, contending, fun b _ sooner => ?_⟩
    exact Bool.eq_false_of_not_eq_true (fun contends => absurd (first b contends) (Nat.not_le.mpr sooner))
  simp only [exec, execIssueGrant, grant, free, turn]

/-- The same, from a place being free at all. -/
theorem nextGrant_of_free {s : State} {c : Contender} (free : ∃ i : Fin 32, s.places[i] = none)
    (contending : contends s c = true)
    (first : ∀ c', contends s c' = true → turnsTo s.lastGranted c ≤ turnsTo s.lastGranted c') :
    ∃ i, s.places[i] = none ∧ s.nextGrant c i := by
  cases hf : freePlace s with
  | none =>
    obtain ⟨i, hi⟩ := free
    exact absurd hi (by simpa using List.find?_eq_none.mp hf i (mem_placeNumbers i))
  | some i => exact ⟨i, (freePlace_eq_some.mp hf).1, hf, contending, first⟩

/-! ### Pieces (R16) -/

theorem issueFor_master {i : Fin 32} {m : Fin 16} {e : Entry} {k : Nat} {p : Piece} {s : State}
    (current : s.current m = some e) (next : e.nextPiece = some (k, p)) :
    issueFor i (.master m) { s with lastGranted := .master m } =
      issuePiece i m e k p { s with lastGranted := .master m } := by
  have same : ({ s with lastGranted := .master m } : State).current m = some e := current
  simp only [issueFor, same, next]

/-- The reset test does nothing in a running part, or while its conditions do not hold. -/
theorem testReset_idle {s : State} (h : s.notClearing) : testReset s = s := by
  refine if_neg (fun ready => ?_)
  rcases h with running | not_ready
  · rw [running] at ready
    exact absurd ready.1 (by decide)
  · rw [not_ready] at ready
    exact absurd ready.2 (by decide)

/-- A piece is issued into its place. -/
theorem issuePiece_places (i : Fin 32) (m : Fin 16) (e : Entry) (k : Nat) (p : Piece) (s : State) :
    (issuePiece i m e k p s).places = upd s.places i (fun _ => some
      { owner := .piece m e.id k, kind := e.request.kind, addr := p.phys, beats := p.beats, data := p.data }) ∧
    (issuePiece i m e k p s).lastGranted = s.lastGranted := by
  have rotation (t : State) : (testReset t).lastGranted = t.lastGranted :=
    (moves_testReset .holdoffExpiry t).keep (P := fun u => u.lastGranted = t.lastGranted)
      (fun _ _ move same => (move.rotation (c := .holdoffExpiry) (by simp) (by simp)).trans same) rfl
  unfold issuePiece
  extract_lets placed issued
  split
  · exact ⟨rfl, rfl⟩
  next w _ =>
  extract_lets counted
  have counts : Works issued counted := works_countIssue w e.request p issued
  split
  · exact ⟨(testReset_places _).trans counts.places, (rotation _).trans counts.lastGranted⟩
  · exact ⟨counts.places, counts.lastGranted⟩

theorem Slot.updWork_wrote (b : Nat) (x : Slot) : x.updWork (Work.wrote b) = { x with state := x.state.wrote b } := by
  obtain ⟨state, _, _, _, _⟩ := x
  cases state <;> rfl

/-- Marking a block WRITTEN (R54). -/
theorem markWritten_eq (w : Fin 16) (i : Fin 4) (b : Nat) (s : State) : markWritten w i b s =
    s.onSlots w (fun u => u.onSlot i (fun x => { x with state := x.state.wrote b })) := by
  simp only [markWritten, State.updSlot_onSlots, ← Slot.updWork_wrote]
  congr 1; funext u; congr 1; funext x; congr 1; funext k
  unfold Work.wrote
  split
  · next beyond =>
    have beyond : ¬ b < k.map.length := Nat.not_lt.mpr (List.getElem?_eq_none_iff.mp beyond)
    rw [if_neg (fun h => beyond h.1)]
  · next already => rw [if_neg (fun h => h.2 already)]
  · next x fresh is =>
    have within : b < k.map.length := (List.getElem?_eq_some_iff.mp is).1
    rw [if_pos ⟨within, fun h => fresh (Option.some.inj (is.symm.trans h))⟩]

/-- The tallies take the issue of a piece (R36, R49, R54). -/
theorem countIssue_eq (w : Fin 16) (r : Request) (p : Piece) (s : State) : countIssue w r p s = { s with
    windows := s.windows.set w { s.windows[w] with inFlight := s.windows[w].inFlight + 1 }
    slots := match p.target with
      | .slot j => s.slots.set w (s.slots[w].map (fun u => u.onSlot j (Slot.issued r.kind p.unit)))
      | _ => s.slots } := by
  unfold countIssue
  extract_lets counted
  cases p.target with
  | slot j =>
    have read : issueToSlot w j counted = counted.onSlots w (fun u => u.onSlot j (Slot.issued .read p.unit)) := rfl
    cases hk : r.kind with
    | read => exact read
    | write =>
      have write : markWritten w j p.unit (issueToSlot w j counted) =
          counted.onSlots w (fun u => u.onSlot j (Slot.issued .write p.unit)) := by
        rw [read, markWritten_eq, State.onSlots_onSlots]
        simp only [SlotUnit.onSlot_onSlot]
        rfl
      exact write
  | _ => rfl

/-! ### The copier's bursts (R77) -/

theorem lowestFull_eq_none {c : Copier} {l : List (Fin 4)} (h : lowestFull c l = none) :
    ∀ j ∈ l, ∀ b, c.buffers[j] = some b → b.fullData = none := by
  induction l with
  | nil => simp
  | cons i l ih =>
    unfold lowestFull at h
    rintro j (_ | ⟨_, hj⟩) b hb
    · rw [hb] at h
      by_contra full
      simp only [if_neg full] at h
      split at h
      · cases h
      · split at h <;> cases h
    · refine ih ?_ j hj b hb
      split at h
      · exact h
      split at h
      · exact h
      split at h
      · cases h
      · split at h <;> cases h

theorem lowestFull_eq_some {c : Copier} {l : List (Fin 4)} {i : Fin 4} {b : Buffer} (h : lowestFull c l = some (i, b)) :
    i ∈ l ∧ c.buffers[i] = some b ∧ b.fullData ≠ none ∧
      ∀ j ∈ l, ∀ b', c.buffers[j] = some b' → b'.fullData ≠ none → b.chunk ≤ b'.chunk := by
  induction l generalizing i b with
  | nil => cases h
  | cons x l ih =>
    unfold lowestFull at h
    split at h
    · next empty =>
      obtain ⟨mem, is, full, low⟩ := ih h
      refine ⟨List.mem_cons_of_mem x mem, is, full, List.forall_mem_cons.mpr ⟨fun b' hb => ?_, low⟩⟩
      rw [empty] at hb
      cases hb
    next y hy =>
    split at h
    · next busy =>
      obtain ⟨mem, is, full, low⟩ := ih h
      refine ⟨List.mem_cons_of_mem x mem, is, full, List.forall_mem_cons.mpr ⟨fun b' hb hf => ?_, low⟩⟩
      rw [hy] at hb
      exact absurd (Option.some.inj hb ▸ busy) hf
    next full =>
    split at h
    · next alone =>
      cases h
      refine ⟨List.mem_cons_self .., hy, full, List.forall_mem_cons.mpr ⟨fun b' hb _ => ?_, fun j hj b' hb hf => ?_⟩⟩
      · rw [hy] at hb
        exact (congrArg Buffer.chunk (Option.some.inj hb)).le
      · exact absurd (lowestFull_eq_none alone j hj b' hb) hf
    · next z rest =>
      obtain ⟨mem, is, full', low⟩ := ih rest
      split at h <;> cases h
      · next first =>
        refine ⟨List.mem_cons_self .., hy, full, List.forall_mem_cons.mpr ⟨fun b' hb _ => ?_, fun j hj b' hb hf => ?_⟩⟩
        · rw [hy] at hb
          exact (congrArg Buffer.chunk (Option.some.inj hb)).le
        · exact first.trans (low j hj b' hb hf)
      · next later =>
        refine ⟨List.mem_cons_of_mem x mem, is, full', List.forall_mem_cons.mpr ⟨fun b' hb _ => ?_, low⟩⟩
        rw [hy] at hb
        cases hb
        exact (Nat.not_le.mp later).le

/-- What the copier offers has a copy that issues bursts (R77). -/
theorem copierOffer_isSome {s : State} {y : Copy} (copy : s.copier.copy = some y) (h : contends s .copier = true) :
    ¬ (y.dropped = true ∨ y.failed = true ∨ 4 ≤ s.copier.burstsInFlight) := by
  intro stopped
  simp only [contends, copierOffer, copy, if_pos stopped, Option.isSome_none] at h
  cases h

theorem copy_of_copierOffer {s : State} {offer : Offer} (h : copierOffer s = some offer) :
    ∃ y, s.copier.copy = some y := by
  unfold copierOffer at h
  split at h
  · cases h
  · next y copy => exact ⟨y, copy⟩

theorem fullData_of_full (chunk : Nat) (data : List Dword) : (⟨chunk, .full data⟩ : Buffer).fullData = some data := rfl

theorem Buffer.full_of_fullData {b : Buffer} (h : b.fullData ≠ none) : ∃ data, b = ⟨b.chunk, .full data⟩ := by
  obtain ⟨chunk, stage⟩ := b
  cases stage with
  | full data => exact ⟨data, rfl⟩
  | reading => exact absurd rfl h
  | writing data => exact absurd rfl h

/-- The write burst of the lowest-numbered full chunk is offered first. -/
theorem copierOffer_write {s : State} {y : Copy} (copy : s.copier.copy = some y) (h : contends s .copier = true)
    {j : Fin 4} {chunk : Nat} {data : List Dword} (full : s.copier.buffers[j] = some ⟨chunk, .full data⟩)
    (lowest : ∀ (j' : Fin 4) chunk' data', s.copier.buffers[j'] = some ⟨chunk', .full data'⟩ → j' = j ∨ chunk < chunk') :
    copierOffer s = some (.write j chunk data) := by
  have found : lowestFull s.copier bufferNumbers = some (j, ⟨chunk, .full data⟩) := by
    cases hl : lowestFull s.copier bufferNumbers with
    | none =>
      have := lowestFull_eq_none hl j (mem_bufferNumbers j) _ full
      cases this
    | some x =>
      obtain ⟨i, b⟩ := x
      obtain ⟨_, is, has, low⟩ := lowestFull_eq_some hl
      have below := low j (mem_bufferNumbers j) _ full nofun
      obtain ⟨data', shape⟩ := Buffer.full_of_fullData has
      rw [shape] at is
      rcases lowest i _ _ is with rfl | less
      · rw [full] at is
        rw [shape, ← Option.some.inj is]
      · exact absurd below (Nat.not_le.mpr less)
  rw [copierOffer, copy]
  simp only [if_neg (copierOffer_isSome copy h), found, fullData_of_full, Option.map_some]

/-- Without a full chunk, the read burst of the next unread one is offered. -/
theorem copierOffer_read {s : State} {y : Copy} {d : Definition} (copy : s.copier.copy = some y)
    (h : contends s .copier = true) (definition : s.definition y.window = some d) {j : Fin 4}
    (none_full : ∀ (j' : Fin 4) chunk' data', s.copier.buffers[j'] ≠ some ⟨chunk', .full data'⟩)
    (empty : s.copier.buffers[j] = none) (lowest : ∀ j' < j, s.copier.buffers[j'] ≠ none) :
    copierOffer s = some (.read j y.next) := by
  have not_found : lowestFull s.copier bufferNumbers = none := by
    cases hl : lowestFull s.copier bufferNumbers with
    | none => rfl
    | some x =>
      obtain ⟨i, b⟩ := x
      obtain ⟨_, is, has, _⟩ := lowestFull_eq_some hl
      obtain ⟨data', shape⟩ := Buffer.full_of_fullData has
      rw [shape] at is
      exact absurd is (none_full i _ _)
  have first : bufferNumbers.find? (fun (i : Fin 4) => decide (s.copier.buffers[i] = none)) = some j :=
    (find?_sorted Fin.val sorted_bufferNumbers).mpr ⟨mem_bufferNumbers j, by simpa using empty,
      fun i _ less => by simpa using lowest i less⟩
  have running := copierOffer_isSome copy h
  simp only [contends, copierOffer, copy, if_neg running, not_found, first, definition] at h ⊢
  split at h
  · next more => rw [if_pos more]
  · cases h

/-! ### Notice writes (R141 to R144, R148) -/

theorem NoticeUnit.writeBackDue_iff {n : NoticeUnit} (active : n.ring = .active) (d : RingDef) :
    n.writeBackDue d = true ↔ n.announces d := by
  simp only [NoticeUnit.writeBackDue, NoticeUnit.full, active, decide_true, Bool.true_and, Bool.or_eq_true,
    Bool.and_eq_true, decide_eq_true_eq]
  simp only [NoticeUnit.announces, NoticeUnit.unannounced, NoticeUnit.unconsumed, indexGap]
  tauto

theorem NoticeUnit.recordPossible_iff {n : NoticeUnit} (active : n.ring = .active) (d : RingDef) :
    n.recordPossible d = true ↔ (n.write + d.entries - n.consumed) % d.entries ≠ d.entries - 1 ∧ n.pending ≠ [] := by
  simp only [NoticeUnit.recordPossible, NoticeUnit.full, active, decide_true, Bool.true_and, Bool.and_eq_true,
    Bool.not_eq_true', decide_eq_false_iff_not, List.isEmpty_eq_false_iff]
  exact Iff.rfl

/-- What the notice writer offers in an ACTIVE ring with no write in flight. -/
theorem noticeOffer_active {s : State} {d : RingDef} (running : s.link.part = .running) (active : s.notice.ring = .active)
    (idle : s.notice.inFlight = none) (defined : s.notice.definition = some d) : noticeOffer s =
      if s.notice.owed then some (d, .writeBack 0) else
      if s.notice.writeBackDue d then some (d, .writeBack s.notice.write) else
      if s.notice.recordPossible d then some (d, .record) else none := by
  unfold noticeOffer
  rw [if_neg (not_not.mpr running), if_neg (not_not.mpr active), idle, defined]

theorem NoticeUnit.complete_stale {n : NoticeUnit} {f : NoticeInFlight} (stale : f.stale = true) (status : MemStatus)
    (now : Micros) : n.complete f status now = { n with inFlight := none } := by
  unfold NoticeUnit.complete
  exact if_pos stale

theorem NoticeUnit.complete_fault {n : NoticeUnit} {f : NoticeInFlight} (fresh : f.stale = false) (now : Micros) :
    n.complete f .memfault now = ({ n with inFlight := none } : NoticeUnit).fault := by
  unfold NoticeUnit.complete
  exact if_neg (by simp [fresh])

theorem NoticeUnit.complete_record {n : NoticeUnit} {f : NoticeInFlight} {d : RingDef} (fresh : f.stale = false)
    (is : f.write = .record) (defined : n.definition = some d) (now : Micros) :
    n.complete f .done now = ({ n with inFlight := none } : NoticeUnit).recordDone d now := by
  obtain ⟨write, stale⟩ := f
  obtain rfl : write = .record := is
  obtain rfl : stale = false := fresh
  obtain ⟨ring, definition⟩ := n
  obtain rfl : definition = some d := defined
  rfl

theorem NoticeUnit.complete_writeBack {n : NoticeUnit} {f : NoticeInFlight} {v : Nat} (fresh : f.stale = false)
    (is : f.write = .writeBack v) (now : Micros) :
    n.complete f .done now = ({ n with inFlight := none } : NoticeUnit).writeBackDone v := by
  obtain ⟨write, stale⟩ := f
  obtain rfl : write = .writeBack v := is
  obtain rfl : stale = false := fresh
  rfl

/-- A record is offered from a pending queue that holds one. -/
theorem pending_of_record {s : State} {d : RingDef} (h : noticeOffer s = some (d, .record)) :
    ∃ n rest, s.notice.pending = n :: rest := by
  unfold noticeOffer at h
  split at h
  · cases h
  split at h
  · cases h
  next active =>
  split at h
  · split at h
    · cases h
    split at h
    · cases h
    split at h
    · next possible =>
      exact List.exists_cons_of_ne_nil ((NoticeUnit.recordPossible_iff (not_not.mp active) _).mp possible).2
    · cases h
  · cases h

/-- The notice writer offers nothing else. -/
theorem ready_of_noticeOffer {s : State} {x : RingDef × NoticeWrite} (h : noticeOffer s = some x) :
    s.link.part = .running ∧ s.notice.ring = .active ∧ s.notice.inFlight = none ∧ s.notice.definition = some x.1 := by
  unfold noticeOffer at h
  split at h
  · cases h
  next running =>
  split at h
  · cases h
  next active =>
  split at h
  · next d idle defined =>
    refine ⟨not_not.mp running, not_not.mp active, idle, ?_⟩
    split at h
    · cases h; exact defined
    split at h
    · cases h; exact defined
    split at h
    · cases h; exact defined
    · cases h
  · cases h

/-! ### Completion of a piece of no window (R18) -/

/-- A request's pieces have all completed exactly when none is unissued or in flight. -/
theorem Entry.allComplete_eq (e : Entry) :
    e.allComplete = e.pieces.all (fun p => decide (p.stage ≠ .unissued) && decide (p.stage ≠ .issued)) := by
  unfold Entry.allComplete
  refine congrArg (fun f => e.pieces.all f) (funext fun p => ?_)
  cases p.stage <;> rfl

/-- The completion of a piece reaches its entry. -/
theorem completePiece_eq {tag : Fin 32} {q : MemRequest} {m : Fin 16} {id k : Nat} {e : Entry} {p : Piece} {s : State}
    (place : s.places[tag] = some q) (owner : q.owner = .piece m id k)
    (entry : s.responses[m].find? (fun e => decide (e.id = id)) = some e) (piece : e.pieces[k]? = some p)
    (status : MemStatus) (data : List Dword) : exec (.pieceCompletion tag status data) s = .next (testReset
      (pieceCompleted m e k (p.complete e.request.kind status data) status (releasePlace tag s))) := by
  obtain ⟨owner', kind, addr, beats, payload⟩ := q
  obtain rfl : owner' = .piece m id k := owner
  have found : (releasePlace tag s).entry m id = some e := entry
  simp only [exec, execPieceCompletion, completePiece, place, found, piece]

end Sys2Proof.Machine

namespace Sys2Proof
open Machine

/-- Settles O10: entry, issue and completion of a piece of no window. -/
theorem passthroughRunsAtItsOwnAddress : Obligations.PassthroughRunsAtItsOwnAddress := by
  refine ⟨fun m r s may_take one_page outside unwatched => ⟨?_, ?_⟩,
    fun m e k p s free contending first current window next => ?_,
    fun tag status data q m id k e p s place owner entry piece window quiet => ?_⟩
  · have not_inside : insideWindow r s = none := by simp [insideWindow, outside]
    rw [classification_eq may_take one_page (.inr outside), classifyHead, popIntake_touched, popIntake_inside,
      popIntake_watched, outside, not_inside, unwatched, ← enterPassthrough_popIntake]
    rfl
  · have ⟨_, idle, _⟩ := may_take
    rw [contends, State.passed_current idle]
    rfl
  · obtain ⟨i, free, granted⟩ := nextGrant_of_free free contending first
    refine ⟨i, free, ?_⟩
    rw [grant_eq granted, issueFor_master current next, issuePiece]
    simp only [window]
    rfl
  · have number : e.id = id := by simpa using List.find?_some entry
    have settle (s : State) : (s.updEntry m e.id (fun x =>
        { x with pieces := x.pieces.set k (p.complete e.request.kind status data) })).updEntry m e.id Entry.settle =
        s.updEntry m e.id (fun x =>
          ({ x with pieces := x.pieces.set k (p.complete e.request.kind status data) } : Entry).settle) :=
      s.updEntry_updEntry m e.id (fun _ => rfl)
    rw [completePiece_eq place owner entry piece, testReset_idle]
    · simp only [pieceCompleted, window, finishRequest, Entry.allComplete_eq, settle]
      rw [← number]
      split <;> rfl
    · have quiet' : (releasePlace tag s).notClearing := quiet
      simp only [pieceCompleted, window, finishRequest]
      split <;> exact quiet'

/-- Settles O22: the issue of a piece in a running part, its tallies by `countIssue_eq`. -/
theorem windowPieceIssued : Obligations.WindowPieceIssued := by
  intro m i e k p w s granted running current window next
  have waiting : e.isWaiting = true := List.find?_some current
  have last : ((e.issue k p).stage = .inFlight) = ((e.issue k p).allIssued = true) := by
    unfold Entry.issue
    extract_lets issued
    by_cases all : issued.allIssued = true
    · have all' : ({ issued with stage := .inFlight } : Entry).allIssued = true := all
      simp only [if_pos all, all']
    · rw [if_neg all]
      refine propext (iff_of_false (fun is => ?_) all)
      have is : e.stage = .inFlight := is
      simp [Entry.isWaiting, is] at waiting
  rw [grant_eq granted, issueFor_master current next, issuePiece]
  simp only [window, countIssue_eq, last]
  by_cases all : (e.issue k p).allIssued = true
  · simp only [if_pos all]
    rw [testReset_idle (.inl (by exact running))]
    simp [lowerWaiting, State.updWindow, State.updEntry, takePlace, upd] <;> rfl
  · simp only [if_neg all]
    simp [State.updEntry, takePlace, upd] <;> rfl

/-- Settles O23: the offers of the notice writer, in their order. -/
theorem noticeWriteIssued : Obligations.NoticeWriteIssued := by
  refine ⟨fun s => ⟨fun contending => ?_, ?_⟩, ?_⟩
  · obtain ⟨x, offer⟩ := Option.isSome_iff_exists.mp contending
    obtain ⟨running, active, idle, defined⟩ := ready_of_noticeOffer offer
    rw [noticeOffer_active running active idle defined] at offer
    refine ⟨running, active, idle, x.1, defined, ?_⟩
    split at offer
    · next owed => exact .inl owed
    split at offer
    · next due => exact .inr (.inl ((NoticeUnit.writeBackDue_iff active _).mp due))
    split at offer
    · next possible => exact .inr (.inr ((NoticeUnit.recordPossible_iff active _).mp possible))
    · cases offer
  · rintro ⟨running, active, idle, d, defined, reason⟩
    show (noticeOffer s).isSome = true
    rw [noticeOffer_active running active idle defined]
    split
    · rfl
    next not_owed =>
    split
    · rfl
    next not_due =>
    have due := fun announces => not_due ((NoticeUnit.writeBackDue_iff active d).mpr announces)
    rw [if_pos ((NoticeUnit.recordPossible_iff active d).mpr ((reason.resolve_left not_owed).resolve_left due))]
    rfl
  · intro i d s granted defined written
    obtain ⟨x, offer⟩ := Option.isSome_iff_exists.mp granted.2.1
    obtain ⟨running, active, idle, same⟩ := ready_of_noticeOffer offer
    rw [defined] at same
    have offers := noticeOffer_active running active idle defined
    rw [grant_eq granted]
    have issues (write : NoticeWrite) (is : noticeOffer s = some (d, write)) :
        issueFor i .noticeWriter { s with lastGranted := .noticeWriter } =
          issueNotice i d write { s with lastGranted := .noticeWriter } := by
      have is : noticeOffer { s with lastGranted := .noticeWriter } = some (d, write) := is
      simp only [issueFor, is]
    refine ⟨fun owed => ?_, fun not_owed due => ?_, fun n rest not_owed not_due pending => ?_⟩
    · rw [issues (.writeBack 0) (by rw [offers, if_pos owed])]
      rfl
    · rw [issues (.writeBack s.notice.write) (by
        rw [offers, if_neg (by simp [not_owed]), if_pos ((NoticeUnit.writeBackDue_iff active d).mpr due)])]
      rfl
    · have possible : s.notice.recordPossible d = true := by
        by_contra impossible
        rw [offers, if_neg (by simp [not_owed]), if_neg (fun h => not_due ((NoticeUnit.writeBackDue_iff active d).mp h)),
          if_neg impossible] at offer
        cases offer
      rw [issues .record (by
        rw [offers, if_neg (by simp [not_owed]), if_neg (fun h => not_due ((NoticeUnit.writeBackDue_iff active d).mp h)),
          if_pos possible])]
      simp only [issueNotice, pending]
      rfl

/-- Settles O24: the two offers of the copier. -/
theorem copierBurstIssued : Obligations.CopierBurstIssued := by
  intro i y d s granted copy definition
  have contending := granted.2.1
  rw [grant_eq granted]
  have issues (offer : Offer) (is : copierOffer s = some offer) :
      issueFor i .copier { s with lastGranted := .copier } = issueBurst i offer { s with lastGranted := .copier } := by
    have is : copierOffer { s with lastGranted := .copier } = some offer := is
    simp only [issueFor, is]
  have known : ({ s with lastGranted := .copier } : State).definition y.window = some d := definition
  refine ⟨fun j chunk data full lowest => ?_, fun j none_full empty lowest => ?_⟩
  · rw [issues _ (copierOffer_write copy contending full lowest)]
    simp only [issueBurst, copy, known, takePlace, State.updCopier, upd, chunkAddr, Config.chunkBytes]
  · rw [issues _ (copierOffer_read copy contending definition none_full empty lowest)]
    simp only [issueBurst, copy, known, takePlace, State.updCopier, upd, chunkAddr, Config.chunkBytes]

/-- Settles O32: the cases of a completion. -/
theorem noticeWriteCompleted : Obligations.NoticeWriteCompleted := by
  have settled (tag : Fin 32) (q : MemRequest) (f : NoticeInFlight) (status : MemStatus) (s : State)
      (running : s.link.part = .running) (place : s.places[tag] = some q) (owner : q.owner = .noticeWrite)
      (flying : s.notice.inFlight = some f) :
      (f.write = .record → exec (.recordWriteCompletion tag status) s = .next { s with
        places := s.places.set tag none, notice := s.notice.complete f status s.timebase }) ∧
      ∀ v, f.write = .writeBack v → exec (.writeBackCompletion tag status) s = .next { s with
        places := s.places.set tag none, notice := s.notice.complete f status s.timebase } := by
    obtain ⟨owner', kind, addr, beats, data⟩ := q
    obtain rfl : owner' = .noticeWrite := owner
    have done : completeNotice tag f status s = { s with
        places := s.places.set tag none, notice := s.notice.complete f status s.timebase } := by
      rw [completeNotice, testReset_idle (.inl (by exact running))]
      rfl
    refine ⟨fun record => ?_, fun v writeBack => ?_⟩
    · simp only [exec, execRecordWriteCompletion, completeRecord, place, flying, if_pos record, done]
    · simp only [exec, execWriteBackCompletion, completeWriteBack, place, flying, writeBack, done, reduceCtorEq, if_false]
  refine ⟨fun tag q f d s running place owner flying fresh active defined => ?_, ?_⟩
  · obtain ⟨record, writeBack⟩ := settled tag q f .done s running place owner flying
    refine ⟨fun is => ?_, fun v is => ?_⟩
    · rw [record is]
      rw [NoticeUnit.complete_record fresh is defined]
      rfl
    · rw [writeBack v is]
      rw [NoticeUnit.complete_writeBack fresh is]
      simp [NoticeUnit.writeBackDone, NoticeUnit.driveAttn, NoticeUnit.attention, active]
  · intro tag q f s running place owner flying faulted ignored
    have outcome (status : MemStatus) := settled tag q f status s running place owner flying
    have fault (fresh : f.stale = false) := NoticeUnit.complete_fault (n := s.notice) fresh s.timebase
    have stale (status : MemStatus) (old : f.stale = true) := NoticeUnit.complete_stale (n := s.notice) old status s.timebase
    refine ⟨fun is fresh => ?_, fun v is fresh => ?_, fun status is old => ?_, fun status v is old => ?_⟩
    · rw [(outcome .memfault).1 is, fault fresh]; rfl
    · rw [(outcome .memfault).2 v is, fault fresh]; rfl
    · rw [(outcome status).1 is, stale status old]
    · rw [(outcome status).2 v is, stale status old]

/-- Settles O21: what each contender issues takes the place. -/
theorem grantFollowsRotation : Obligations.GrantFollowsRotation := by
  refine ⟨fun s idle => ?_, fun c i s granted known => ?_⟩
  · refine congrArg Host.Outcome.next ?_
    unfold grant
    split
    · next place c free turn =>
      rcases idle with full | none_contends
      · have taken := full place
        rw [(freePlace_eq_some.mp free).1] at taken
        cases taken
      · have contending := List.find?_some turn
        rw [none_contends c] at contending
        cases contending
    · rfl
  · rw [grant_eq granted]
    obtain ⟨_, contending, _⟩ := granted
    suffices takes : ∃ q, (issueFor i c { s with lastGranted := c }).places = upd s.places i (fun _ => some q) ∧
        (issueFor i c { s with lastGranted := c }).lastGranted = c by
      obtain ⟨q, places, rotation⟩ := takes
      refine ⟨_, rfl, rotation, ?_, fun j hj => ?_⟩ <;> rw [places]
      · rw [upd_same]; rfl
      · exact upd_ne _ _ hj.symm
    cases c with
    | master m =>
      obtain ⟨e, current, ready⟩ := (Option.any_eq_true _ _).mp contending
      obtain ⟨⟨k, p⟩, next⟩ := Option.isSome_iff_exists.mp (Bool.and_eq_true _ _ ▸ ready).2
      rw [issueFor_master current next]
      exact ⟨_, issuePiece_places ..⟩
    | noticeWriter =>
      obtain ⟨⟨d, write⟩, offer⟩ := Option.isSome_iff_exists.mp contending
      have same : noticeOffer { s with lastGranted := .noticeWriter } = some (d, write) := offer
      simp only [issueFor, same]
      cases write with
      | writeBack v => exact ⟨_, rfl, rfl⟩
      | record =>
        obtain ⟨n, rest, pending⟩ := pending_of_record offer
        simp only [issueNotice, pending]
        exact ⟨_, rfl, rfl⟩
    | copier =>
      obtain ⟨offer, offered⟩ := Option.isSome_iff_exists.mp contending
      have same : copierOffer { s with lastGranted := .copier } = some offer := offered
      simp only [issueFor, same]
      obtain ⟨y, copy⟩ := copy_of_copierOffer offered
      obtain ⟨d, definition⟩ := Option.isSome_iff_exists.mp (known y copy)
      have definition : ({ s with lastGranted := .copier } : State).definition y.window = some d := definition
      simp only [issueBurst, copy, definition]
      cases offer <;> exact ⟨_, rfl, rfl⟩

end Sys2Proof
end


section
/-! SUPPORT. The bytes of link frames (R167, R169), the taking of a link command (R151 to R155), and the link commands
that only write a table or hand a commit on. -/

namespace Sys2Proof.Machine

/-! ### Little-endian fields (R167) -/

theorem leNat_leBytes (n x : Nat) : leNat (leBytes n x) = x % 256 ^ n := by
  induction n generalizing x with
  | zero => simp [leBytes, leNat, Nat.mod_one]
  | succ n ih =>
    rw [leBytes, leNat, ih, BitVec.toNat_ofNat]
    exact Nat.mod_mul.symm.trans (congrArg (x % ·) Nat.pow_succ'.symm)

@[simp] theorem length_leBytes (n x : Nat) : (leBytes n x).length = n := by
  induction n generalizing x with
  | zero => rfl
  | succ n ih => rw [leBytes, List.length_cons, ih]

/-- A field is read where it stands. -/
theorem field_at {before part after : List Byte} {offset size : Nat} (start : before.length = offset)
    (long : part.length = size) : field (before ++ part ++ after) offset size = leNat part := by
  subst start long
  rw [field, List.append_assoc, List.drop_left, List.take_left]

theorem field_last {before part : List Byte} {offset size : Nat} (start : before.length = offset)
    (long : part.length = size) : field (before ++ part) offset size = leNat part := by
  rw [← field_at (after := []) start long, List.append_nil]

@[simp] theorem field_one (a b : Byte) (rest : List Byte) : field (a :: b :: rest) 1 1 = b.toNat := rfl

@[simp] theorem field_two (a b c : Byte) (rest : List Byte) : field (a :: b :: c :: rest) 2 1 = c.toNat := rfl

theorem number_lt {n x : Nat} (h : x < n) : number n x = some ⟨x, h⟩ := dif_pos h

theorem number_ge {n x : Nat} (h : n ≤ x) : number n x = none := dif_neg (Nat.not_lt.mpr h)

theorem toNat_byteOf {n : Nat} (h : n ≤ 256) (x : Fin n) : (byteOf x).toNat = x.val :=
  (BitVec.toNat_ofNat ..).trans (Nat.mod_eq_of_lt (Nat.lt_of_lt_of_le x.isLt h))

theorem number_byteOf {n : Nat} (h : n ≤ 256) (x : Fin n) : number n (byteOf x).toNat = some x := by
  simp only [toNat_byteOf h, number_lt x.isLt]

theorem withWindow_byteOf (code : Byte) (w : Fin 16) (rest : List Byte) (f : Fin 16 → Answer) :
    withWindow (code :: byteOf w :: rest) f = f w := by
  rw [withWindow, field_one, number_byteOf (by decide)]

/-! ### The taking of a command (R152 to R155) -/

theorem takeWrite_error {code : Byte} {ok : Bool} {owner : State → Answer} {s : State} {result : Result} {index : Nat}
    (awake : s.link.awaitRise = false) (h : frameAnswer ok owner s = .error (result, index)) :
    takeWrite code ok owner s = { s with link := s.link.recorded code result index } := by
  simp only [takeWrite, awake, h]
  rfl

theorem takeWrite_ok {code : Byte} {owner : State → Answer} {s t : State} (ready : s.linkReady)
    (h : owner s = .ok t) (link : t.link = s.link) :
    takeWrite code true owner s = { t with link := s.link.recorded code .accepted 0 } := by
  have answer : frameAnswer true owner s = .ok t := by
    rw [frameAnswer, if_neg (by decide), if_neg (by rw [ready.1]; decide), h]
  simp only [takeWrite, ready.2, answer]
  rw [← link]
  rfl

theorem takeRead_captures {code : Byte} {selectors : Nat} {params : List Byte} {capture : State → List Byte} {s : State}
    (awake : s.link.awaitRise = false) (complete : selectors ≤ params.length) :
    takeRead code selectors params capture s =
      { s with link := s.link.captured (code :: params.take selectors) (capture s) } := by
  rw [takeRead, if_neg (by rw [awake]; decide), if_neg (Nat.not_lt.mpr complete)]
  rfl

theorem takeRead_short {code : Byte} {selectors : Nat} {params : List Byte} {capture : State → List Byte} {s : State}
    (awake : s.link.awaitRise = false) (short : params.length < selectors) :
    takeRead code selectors params capture s = { s with link := { s.link with frame := none } } := by
  rw [takeRead, if_neg (by rw [awake]; decide), if_pos short]
  rfl

/-! ### Commits over the link (R126) -/

theorem exec_publish {w : Fin 16} {tag : BitVec 16} {s : State} (ready : s.linkReady)
    (live : s.windows[w].state = .live) : exec (.publish (byteOf w :: leBytes 2 tag.toNat)) s =
      .next { arrive w (linkCommit .publish tag) s with link := s.link.recorded 0x08 .accepted 0 } := by
  have carried : field (codePublish :: byteOf w :: leBytes 2 tag.toNat) 2 2 = tag.toNat := by
    rw [show codePublish :: byteOf w :: leBytes 2 tag.toNat = [codePublish, byteOf w] ++ leBytes 2 tag.toNat from rfl,
      field_last (offset := 2) rfl (length_leBytes ..), leNat_leBytes]
    exact Nat.mod_eq_of_lt tag.isLt
  refine congrArg _ (takeWrite_ok ready ?_ (works_arrive ..).link)
  rw [ownerPublish, frameOf, withWindow_byteOf, if_pos live, carried, BitVec.ofNat_toNat, BitVec.setWidth_eq]

theorem exec_abandon {w : Fin 16} {d : Definition} {s : State} (ready : s.linkReady)
    (live : s.windows[w].state = .live) (definition : s.definition w = some d) (slotted : d.isSlotted = true) :
    exec (.abandon [byteOf w]) s =
      .next { arrive w (linkCommit .abandon 0) s with link := s.link.recorded 0x09 .accepted 0 } := by
  refine congrArg _ (takeWrite_ok ready ?_ (works_arrive ..).link)
  rw [ownerAbandon, frameOf, withWindow_byteOf, if_neg (not_not.mpr live), definition]
  exact if_pos slotted

/-- What becomes of a commit from the link when it arrives in a LIVE window, the link's record being written after it. -/
theorem linkCommit_arrives {w : Fin 16} {c : Commit} {s : State} (link : Link) (running : s.link.part = .running)
    (live : s.windows[w].state = .live) (untriggered : c.master = none ∧ c.trigger = none) :
    (4 ≤ s.commits[w].queue.length → { arrive w c s with link := link } = { s with
      notice := s.notice.take (.commitDiscarded w .queueFull none 0) s.timebase, link := link }) ∧
    (s.commits[w].queue.length < 4 → (s.commits[w].current.isSome = true ∨ s.commits[w].queue ≠ []) →
      { arrive w c s with link := link } = { s with
        commits := s.commits.set w { s.commits[w] with queue := s.commits[w].queue ++ [c] }, link := link }) ∧
    (s.commits[w].queue = [] → s.commits[w].current = none →
      ∃ t, s.begins w [] c = .next t ∧ { arrive w c s with link := link } = { t with link := link }) := by
  refine ⟨fun full => ?_, fun room busy => ?_, fun empty idle => ⟨_, (arrive_begins running live empty idle).symm, rfl⟩⟩
  · rw [arrive_discarded (reason := .queueFull) running (by rw [live]; exact if_pos full), discardCommit, untriggered.1,
      untriggered.2]
    rfl
  · rw [arrive_queued running live room busy]

/-! ### Consumer bindings (R107) -/

theorem consumerInUse_iff {s : State} {c : Fin 8} : consumerInUse s c = true ↔
    ∃ w d, s.windows[(w : Fin 16)].state.working = true ∧ s.definition w = some d ∧
      d.consumers.getLsbD c.val = true := by
  simp only [consumerInUse, List.any_eq_true, Bool.and_eq_true, Option.any_eq_true]
  exact ⟨fun ⟨w, _, working, d, definition, used⟩ => ⟨w, d, working, definition, used⟩,
    fun ⟨w, d, working, definition, used⟩ => ⟨w, mem_windowNumbers w, working, d, definition, used⟩⟩

theorem boundElsewhere_iff {s : State} {c : Fin 8} {m : Fin 16} : boundElsewhere s c m = true ↔
    ∃ (c' : Fin 8) (b : Binding), c' ≠ c ∧ s.consumers[c'] = some b ∧ b.master = m := by
  simp only [boundElsewhere, List.any_eq_true, Bool.and_eq_true, Option.any_eq_true, decide_eq_true_eq]
  exact ⟨fun ⟨c', _, other, b, binding, same⟩ => ⟨c', b, other, binding, same⟩,
    fun ⟨c', b, other, binding, same⟩ => ⟨c', mem_consumerNumbers c', other, b, binding, same⟩⟩

theorem producesFor_iff {s : State} {c : Fin 8} {m : Fin 16} : producesFor s c m = true ↔
    ∃ w d, s.windows[(w : Fin 16)].state ≠ .undefined ∧ s.definition w = some d ∧
      d.producers.getLsbD m.val = true ∧ d.consumers.getLsbD c.val = true := by
  simp only [producesFor, List.any_eq_true, Bool.and_eq_true, Option.any_eq_true, decide_eq_true_eq]
  exact ⟨fun ⟨w, _, defined, d, definition, both⟩ => ⟨w, d, defined, definition, both⟩,
    fun ⟨w, d, defined, definition, both⟩ => ⟨w, mem_windowNumbers w, defined, d, definition, both⟩⟩

theorem unused_consumer {s : State} {c : Fin 8} (unused : ∀ w d, s.windows[(w : Fin 16)].state.working = true →
    s.definition w = some d → d.consumers.getLsbD c.val = false) : consumerInUse s c = false :=
  Bool.eq_false_of_not_eq_true fun used => by
    obtain ⟨w, d, working, definition, member⟩ := consumerInUse_iff.mp used
    rw [unused w d working definition] at member
    cases member

/-! ### Commit words, stall limits and the resumption of a window (R32, R35, R39) -/

theorem addrField_leBytes {before after : List Byte} (offset : Nat) (start : before.length = offset) (a : Addr) :
    addrField (before ++ leBytes 5 a.toNat ++ after) offset = a := by
  rw [addrField, field_at start (length_leBytes ..), leNat_leBytes, Nat.mod_eq_of_lt (by exact a.isLt),
    BitVec.ofNat_toNat, BitVec.setWidth_eq]

theorem wordField_leBytes {before after : List Byte} (offset : Nat) (start : before.length = offset) {a : Addr}
    (word : a ≠ BitVec.allOnes 40) : wordField (before ++ leBytes 5 a.toNat ++ after) offset = some a := by
  rw [wordField, addrField_leBytes offset start, if_neg word]

theorem ne_allOnes_of_aligned {a : Addr} (aligned : a.toNat % 8 = 0) : a ≠ BitVec.allOnes 40 := by
  rintro rfl
  cases aligned

theorem wordOverlaps_iff {w : Fin 16} {d : Definition} {a : Addr} {s : State} : wordOverlaps w d a s = true ↔
    ∃ g ∈ s.windowRegions (some w) ++ s.ringRegions ++ ({ d with word := none } : Definition).regions.map Prod.snd,
      touches (wordRegion a) g = true := List.any_eq_true

theorem forMasters_id {f : Fin 16 → State → State} {s : State} (h : ∀ m, f m s = s) : forMasters f s = s := by
  have all : ∀ ms : List (Fin 16), ms.foldl (fun t m => f m t) s = s := fun ms => by
    induction ms with
    | nil => rfl
    | cons m ms ih => rw [List.foldl_cons, h m, ih]
  exact all masters

/-- Without a write in a slot wait, an allocation maps none (R47). -/
theorem mapSlotWaits_none {w : Fin 16} {s : State} (none_ : s.noneInSlotWait w) (i : Fin 4) : mapSlotWaits w i s = s := by
  refine forMasters_id fun m => ?_
  split
  · rfl
  · next e current =>
    rw [if_neg]
    rintro ⟨window, waits⟩
    rw [none_ m e current window] at waits
    cases waits

theorem SlotUnit.lowestFree_eq_none {u : SlotUnit} :
    u.lowestFree = none ↔ ∀ (i : Fin 4) x, u.slots[i] = some x → x.state ≠ .free := by
  simp only [lowestFree, List.find?_eq_none, Option.any_eq_true, not_exists, not_and, decide_eq_true_eq]
  exact ⟨fun h i => h i (mem_slotNumbers i), fun h i _ => h i⟩

theorem SlotUnit.lowestFree_eq_some {u : SlotUnit} {i : Fin 4} {x : Slot} (slot : u.slots[i] = some x)
    (free : x.state = .free) (lowest : ∀ j < i, ∀ y, u.slots[j] = some y → y.state ≠ .free) :
    u.lowestFree = some i := by
  refine (find?_sorted _ sorted_slotNumbers).mpr ⟨mem_slotNumbers i, ?_, fun j _ below => ?_⟩
  · rw [slot]
    exact decide_eq_true free
  · refine Bool.eq_false_of_not_eq_true fun p => ?_
    obtain ⟨y, other, free⟩ := (Option.any_eq_true _ _).mp p
    exact lowest j below y other (of_decide_eq_true free)

/-- An allocation attempt that succeeds is the allocation of the lowest-numbered FREE slot (R46). -/
theorem allocate_slot {w : Fin 16} {d : Definition} {u : SlotUnit} {i : Fin 4} {s : State}
    (live : s.windows[w].state = .live) (definition : s.definition w = some d) (unit : s.slots[w] = some u)
    (unfilled : u.filling = none) (unsealed : u.sealed = none) (lowest : u.lowestFree = some i) :
    allocate w s = allocateSlot w d u i s := by
  simp only [allocate, live, definition, unit, unfilled, unsealed, lowest, ne_eq, not_true_eq_false, or_self, if_false]

/-- Without a FREE slot an allocation attempt changes nothing (R46). -/
theorem allocate_full {w : Fin 16} {s : State} (full : ∀ u, s.slots[w] = some u → u.lowestFree = none) :
    allocate w s = s := by
  unfold allocate
  split
  · rfl
  split
  · next u _ unit =>
    rw [full u unit]
    exact ite_self _
  · rfl

end Sys2Proof.Machine

namespace Sys2Proof
open Machine

/-- Settles O50: either command hands its commit to the commit unit, which discards, queues or begins it. -/
theorem linkCommitsArrive : Obligations.LinkCommitsArrive := by
  intro w tag d s ready live definition c code commit which
  have taken : exec c s = .next { arrive w commit s with link := s.link.recorded code .accepted 0 } ∧
      commit.master = none ∧ commit.trigger = none := by
    rcases which with ⟨rfl, rfl, rfl⟩ | ⟨rfl, slotted, rfl, rfl⟩
    · exact ⟨exec_publish ready live, rfl, rfl⟩
    · exact ⟨exec_abandon ready live definition slotted, rfl, rfl⟩
  rw [taken.1]
  obtain ⟨full, queued, begins⟩ := linkCommit_arrives (s.link.recorded code .accepted 0) ready.1 live taken.2
  refine ⟨fun h => congrArg _ (full h), fun h k => congrArg _ (queued h k), fun h k => ?_⟩
  obtain ⟨t, begun, same⟩ := begins h k
  exact ⟨t, begun, congrArg _ same⟩

/-- Settles O51: the owner's checks are these hypotheses, read off the consumer and window tables. -/
theorem consumerBindingsTaken : Obligations.ConsumerBindingsTaken := by
  intro c s ready unused
  have free := unused_consumer unused
  refine ⟨congrArg _ (takeWrite_ok (t := { s with consumers := s.consumers.set c none }) ready ?_ rfl),
    fun m source idle small single apart => ?_⟩
  · rw [ownerUnbindConsumer, frameOf, field_one, number_byteOf (by decide)]
    exact if_neg (by rw [free]; decide)
  · have elsewhere : ¬ (boundElsewhere s c m = true ∨ producesFor s c m = true) := by
      rintro (bound | produces)
      · obtain ⟨c', b, other, binding, same⟩ := boundElsewhere_iff.mp bound
        exact single c' b other binding same
      · obtain ⟨w, d, defined, definition, producer, consumer⟩ := producesFor_iff.mp produces
        rw [apart w d defined definition producer] at consumer
        cases consumer
    have idleBytes (x : Byte) : field (codeBindConsumer :: byteOf c :: byteOf m :: x :: leBytes 2 idle) 4 2 = idle :=
      (leNat_leBytes 2 idle).trans (Nat.mod_eq_of_lt (Nat.lt_succ_of_le small))
    refine congrArg _ (takeWrite_ok (t := { s with consumers := s.consumers.set c (some ⟨m, source, idle⟩) }) ready ?_ rfl)
    cases source <;>
    · simp only [ownerBindConsumer, frameOf, List.cons_append, List.nil_append, field_one, field_two,
        number_byteOf (show 8 ≤ 256 by decide), number_byteOf (show 16 ≤ 256 by decide), free, elsewhere, idleBytes]
      rfl

/-- Settles O49: the owner of each command finds the window in the state it asks for. -/
theorem windowTableCommandsTaken : Obligations.WindowTableCommandsTaken := by
  intro w d s ready definition changed
  have recorded : s.windows[w].definition = some d := definition
  refine ⟨fun defined => ⟨?_, ?_, fun a aligned clear => ?_⟩, fun state n low high => ?_, fun halted => ⟨fun full => ?_,
    fun u i x unit unfilled unsealed slot free lowest plain nobody => ?_⟩⟩
  · refine congrArg _ (takeWrite_ok (t := s.updWindow w (fun x => { x with state := .undefined, definition := none }))
      ready ?_ rfl)
    rw [ownerUndefineWindow, frameOf, withWindow_byteOf, if_pos defined]
  · refine congrArg _ (takeWrite_ok (t := s.updWindow w (fun x => { x with definition := some { d with word := none } }))
      ready ?_ rfl)
    have noWord : wordField (codeSetCommitWord :: byteOf w :: List.replicate 5 0xFF) 2 = none := if_pos rfl
    rw [ownerSetCommitWord, frameOf, withWindow_byteOf, defined, definition]
    simp only [noWord]
  · refine congrArg _ (takeWrite_ok (t := s.updWindow w (fun x => { x with definition := some { d with word := some a } }))
      ready ?_ rfl)
    have word : wordField (codeSetCommitWord :: byteOf w :: leBytes 5 a.toNat) 2 = some a :=
      wordField_leBytes (before := [codeSetCommitWord, byteOf w]) (after := []) 2 rfl (ne_allOnes_of_aligned aligned)
    have apart : ¬ (a.toNat % 8 ≠ 0 ∨ wordOverlaps w d a s = true) := by
      rintro (odd | overlap)
      · exact odd aligned
      · obtain ⟨g, member, touch⟩ := wordOverlaps_iff.mp overlap
        rw [clear g member] at touch
        cases touch
    rw [ownerSetCommitWord, frameOf, withWindow_byteOf, defined, definition]
    simp only [word, apart]
    rfl
  · refine congrArg _ (takeWrite_ok (t := s.updWindow w (fun x => { x with definition := some { d with limit := n } }))
      ready ?_ rfl)
    have given : field (codeSetStallLimit :: byteOf w :: leBytes 2 n) 2 2 = n :=
      (leNat_leBytes 2 n).trans (Nat.mod_eq_of_lt (Nat.lt_succ_of_le high))
    rw [ownerSetStallLimit, frameOf, withWindow_byteOf]
    simp only [given, if_pos state, Nat.ne_of_gt low, State.updWindow, upd, recorded, Option.map_some, if_false]
  · refine congrArg _ (takeWrite_ok (t := s.updWindow w (fun x => { x with state := .live, haltCause := none }))
      ready ?_ rfl)
    rw [ownerResumeWindow, frameOf, withWindow_byteOf, if_pos halted, allocate_full]
    exact fun u unit => SlotUnit.lowestFree_eq_none.mpr (full u unit)
  · have live : (s.updWindow w (fun x => { x with state := .live, haltCause := none })).windows[w].state = .live := by
      rw [State.updWindow_windows, upd_same]
    have kept : (s.updWindow w (fun x => { x with state := .live, haltCause := none })).definition w = some d := by
      rw [State.definition, State.updWindow_windows, upd_same]
      exact definition
    have taken := allocate_slot live kept unit unfilled unsealed (SlotUnit.lowestFree_eq_some slot free lowest)
    refine congrArg _ (takeWrite_ok (t := (s.updWindow w (fun x => { x with state := .live, haltCause := none })).onSlots w
      (fun u => { u with filling := some i }.onSlot i (fun x => { x with
        state := .filling { map := List.replicate d.units .notWritten, written := 0, source := none } }))) ready ?_ rfl)
    rw [ownerResumeWindow, frameOf, withWindow_byteOf, if_pos halted, taken, allocateSlot]
    simp only [plain, Bool.false_eq_true, if_false, newWork]
    rw [mapSlotWaits_none (by exact nobody)]
    exact congrArg Except.ok (State.onSlots_onSlots ..)

end Sys2Proof
end


section
/-! SUPPORT. The SET NOTICE RING frame (R137, R169) and the records that read commands capture (R160, R161, R170). -/

namespace Sys2Proof.Machine

/-! ### The SET NOTICE RING frame (R137, R169) -/

theorem ringSizes_bounds : ∀ n ∈ ringSizes, 0 < n ∧ n < 65536 := by decide

theorem ringBytes_take (d : RingDef) : (ringBytes d).take 17 =
    leBytes 5 d.base.toNat ++ leBytes 2 d.entries ++ leBytes 5 d.produced.toNat ++ leBytes 5 d.consumed.toNat := rfl

theorem RingDef.givenBy_ringBytes {d : RingDef} (wf : d.wf) : d.givenBy (ringBytes d) := by
  obtain ⟨-, -, -, -, -, -, high, -⟩ := wf
  refine ⟨BitVec.ofNat 8 d.threshold, 0, leBytes 2 d.holdoff, rfl, .inl ?_, .inl ⟨rfl, rfl⟩⟩
  rw [BitVec.toNat_ofNat, Nat.mod_eq_of_lt (by omega)]

theorem RingDef.givenBy_length {d : RingDef} {params : List Byte} (given : d.givenBy params) : params.length = 21 := by
  obtain ⟨threshold, mode, holdoff, rfl, -, time⟩ := given
  have two : holdoff.length = 2 := by
    rcases time with ⟨-, rfl⟩ | ⟨-, two, -⟩
    · exact length_leBytes ..
    · exact two
  rw [ringBytes_take]
  simp [two]

/-- A frame that carries a ring definition: the fields the checks look at, and the definition read back. -/
theorem RingDef.givenBy_fields {d : RingDef} {params : List Byte} (wf : d.wf) (given : d.givenBy params) :
    field (0x0C :: params) 6 2 = d.entries ∧ field (0x0C :: params) 1 5 = d.base.toNat ∧
    field (0x0C :: params) 8 5 = d.produced.toNat ∧ field (0x0C :: params) 13 5 = d.consumed.toNat ∧
    field (0x0C :: params) 18 1 ≤ 16 ∧ field (0x0C :: params) 19 1 ≤ 1 ∧ ringOf (0x0C :: params) = d := by
  obtain ⟨size, -, -, -, -, low, high, time⟩ := wf
  obtain ⟨threshold, mode, holdoff, rfl, thresholdGiven, holdoffGiven⟩ := given
  rw [ringBytes_take]
  generalize shape : (0x0C : Byte) :: (leBytes 5 d.base.toNat ++ leBytes 2 d.entries ++ leBytes 5 d.produced.toNat ++
    leBytes 5 d.consumed.toNat ++ threshold :: mode :: holdoff) = frame
  have entries : field frame 6 2 = d.entries := by
    rw [← shape]
    exact (leNat_leBytes 2 d.entries).trans (Nat.mod_eq_of_lt (ringSizes_bounds _ size).2)
  have address (a : Addr) : leNat (leBytes 5 a.toNat) = a.toNat :=
    (leNat_leBytes 5 a.toNat).trans (Nat.mod_eq_of_lt a.isLt)
  have base : field frame 1 5 = d.base.toNat := shape ▸ address d.base
  have produced : field frame 8 5 = d.produced.toNat := shape ▸ address d.produced
  have consumed : field frame 13 5 = d.consumed.toNat := shape ▸ address d.consumed
  have thresholdByte : field frame 18 1 = threshold.toNat := shape ▸ rfl
  have modeByte : field frame 19 1 = mode.toNat := shape ▸ rfl
  have holdoffBytes : field frame 20 2 = leNat (holdoff.take 2) := shape ▸ rfl
  have thresholdRead : (if field frame 18 1 = 0 then 4 else field frame 18 1) = d.threshold := by
    rw [thresholdByte]
    rcases thresholdGiven with same | ⟨rfl, four⟩
    · rw [same, if_neg (by omega)]
    · rw [four]
      rfl
  have holdoffRead : (if field frame 19 1 = 1 then 100 else field frame 20 2) = d.holdoff := by
    rw [modeByte, holdoffBytes]
    rcases holdoffGiven with ⟨rfl, rfl⟩ | ⟨rfl, -, hundred⟩
    · exact (leNat_leBytes 2 d.holdoff).trans (Nat.mod_eq_of_lt (Nat.lt_succ_of_le time))
    · rw [hundred]
      rfl
  have modeLow : field frame 19 1 ≤ 1 := by
    rw [modeByte]
    rcases holdoffGiven with ⟨rfl, -⟩ | ⟨rfl, -⟩ <;> decide
  have thresholdLow : field frame 18 1 ≤ 16 := by
    rw [thresholdByte]
    rcases thresholdGiven with same | ⟨rfl, -⟩
    · omega
    · decide
  refine ⟨entries, base, produced, consumed, thresholdLow, modeLow, ?_⟩
  simp only [ringOf, addrField, entries, base, produced, consumed, thresholdRead, holdoffRead, BitVec.ofNat_toNat,
    BitVec.setWidth_eq]

theorem ringFieldChecks_pass {d : RingDef} {params : List Byte} (wf : d.wf) (given : d.givenBy params) :
    firstFailing (ringFieldChecks (0x0C :: params)) = none := by
  obtain ⟨entries, base, produced, consumed, threshold, mode, same⟩ := RingDef.givenBy_fields wf given
  obtain ⟨size, aligned, ends, producedAligned, consumedAligned, low, high, -⟩ := wf
  rw [firstFailing_none]
  simp only [ringFieldChecks, List.forall_mem_cons, same, base, produced, consumed, regionFits, within, Bool.and_eq_true,
    decide_eq_true_eq, List.contains_iff_mem, Config.addressSpace]
  exact ⟨size, ⟨aligned, ends⟩, producedAligned, consumedAligned, ⟨low, high⟩, ⟨Nat.zero_le _, mode⟩, nofun⟩

theorem ringOverlap_eq_none {d : RingDef} {s : State} (pairs : (d.regions.map Prod.snd).Pairwise Apart)
    (apart : ∀ a ∈ d.regions.map Prod.snd, ∀ b ∈ s.windowRegions none, Apart a b) : ringOverlap d s = none := by
  rw [ringOverlap, firstOverlap_eq_none.mpr ⟨pairs, fun _ _ _ h => absurd h List.not_mem_nil⟩, Option.map_eq_none_iff]
  refine List.find?_eq_none.mpr fun p member overlap => ?_
  obtain ⟨g, region, touch⟩ := List.any_eq_true.mp overlap
  rw [apart p.2 (List.mem_map_of_mem member) g region] at touch
  cases touch

/-! ### The records (R160, R161, R170) -/

theorem slotFieldBytes_length (u : Option SlotUnit) : (slotFieldBytes u).length = 7 := by
  cases u with
  | none => rfl
  | some u => simp [slotFieldBytes]

theorem rollFieldBytes_length (d : Option Definition) (u : Option RollState) : (rollFieldBytes d u).length = 6 := by
  unfold rollFieldBytes
  split
  · rfl
  split <;> simp

theorem slotBytes_length (x : Option Slot) : (slotBytes x).length = 12 := by
  unfold slotBytes
  split
  · rfl
  · rw [List.length_append]
    split <;> rfl

theorem windowStatusRecord_length (s : State) (w : Fin 16) : (windowStatusRecord s w).length = 68 := by
  simp [windowStatusRecord, slotFieldBytes_length, rollFieldBytes_length, slotBytes_length, slotNumbers]

theorem definitionRecord_take (s : State) (w : Fin 16) : (definitionRecord s w).take 1 =
    [if s.windows[w].state = .undefined ∨ s.definition w = none then 0 else 1] := by
  unfold definitionRecord
  split
  · next undefined => rw [if_pos (.inl undefined)]; rfl
  · next state =>
    split
    · next absent => rw [if_pos (.inr absent)]; rfl
    · next d definition =>
      rw [if_neg (not_or.mpr ⟨state, by rw [definition]; exact nofun⟩)]
      rfl

theorem busyWindows_eq (s : State) : busyWindows s = windowNumbers.countP (fun w =>
    decide (s.windows[w].inFlight ≠ 0 ∨ s.windows[w].waiting ≠ 0)) := by
  refine List.countP_congr fun w _ => ?_
  simp [Nat.pos_iff_ne_zero]

theorem exec_readWindowDefinition {w : Fin 16} {s : State} (awake : s.link.awaitRise = false) (rest : List Byte) :
    exec (.readWindowDefinition (byteOf w :: rest)) s =
      .next { s with link := s.link.captured [0x81, byteOf w] (definitionRecord s w) } := by
  refine congrArg _ ((takeRead_captures awake (Nat.succ_le_succ (Nat.zero_le _))).trans ?_)
  simp only [List.getD_cons_zero, number_byteOf (show 16 ≤ 256 by decide)]
  rfl

end Sys2Proof.Machine

namespace Sys2Proof
open Machine

/-- Settles O52: the frame carries the definition, which passes the checks. -/
theorem noticeRingCommandsTaken : Obligations.NoticeRingCommandsTaken := by
  intro s ready set
  refine ⟨fun d params wf given pairs apart => ?_, fun a b five fourteen => ?_, fun mask => ?_, fun active => ?_⟩
  · have length : hasLength 22 (0x0C :: params) = true := by
      simp [hasLength, RingDef.givenBy_length given]
    obtain ⟨entries, -, -, -, -, -, same⟩ := RingDef.givenBy_fields wf given
    have taken := takeWrite_ok (code := 0x0C) (owner := ownerSetNoticeRing (0x0C :: params))
      (t := s.updNotice (fun n => n.setRing (some d))) ready ?_ rfl
    · rw [← length] at taken
      exact congrArg _ taken
    · have nonzero : d.entries ≠ 0 := Nat.ne_of_gt (ringSizes_bounds _ wf.1).1
      simp only [ownerSetNoticeRing, entries, nonzero, if_false, ringFieldChecks_pass wf given, same,
        ringOverlap_eq_none pairs apart]
  · have length : hasLength 22 (0x0C :: (a ++ [0, 0] ++ b)) = true := by
      simp [hasLength, five, fourteen]
    have taken := takeWrite_ok (code := 0x0C) (owner := ownerSetNoticeRing (0x0C :: (a ++ [0, 0] ++ b)))
      (t := s.updNotice (fun n => n.setRing none)) ready ?_ rfl
    · rw [← length] at taken
      exact congrArg _ taken
    · exact if_pos (field_at (before := 0x0C :: a) (part := [0, 0]) (by rw [List.length_cons, five]) rfl)
  · have carried : field (codeSetNoticeMask :: leBytes 2 mask.toNat) 1 2 = mask.toNat :=
      (leNat_leBytes 2 mask.toNat).trans (Nat.mod_eq_of_lt mask.isLt)
    refine congrArg _ (takeWrite_ok (t := s.updNotice (fun n => { n with mask := mask })) ready ?_ rfl)
    rw [ownerSetNoticeMask, frameOf, carried, BitVec.ofNat_toNat, BitVec.setWidth_eq]
  · exact congrArg _ (takeWrite_ok (t := s.updNotice (fun n => { n with flush := true })) ready (if_pos active) rfl)

/-- Settles O54: each command captures its record, whose fields are compared one by one. -/
theorem readCommandsCapture : Obligations.ReadCommandsCapture := by
  intro s awake captured
  refine ⟨fun w rest => ?_, fun c rest => ?_, fun b rest high => ?_,
    fun b rest high => ?_, fun a b rest high => ?_, fun params => ?_, fun params => ?_, fun params => ?_,
    fun w => ⟨windowStatusRecord_length s w, definitionRecord_take s w⟩⟩
  · intro codes slotFields rollFields slotEntry viewBytes
    have slotFieldsEq : slotFields = slotFieldBytes s.slots[w] := by
      simp only [slotFields]
      rcases s.slots[w] with _ | ⟨slots, counter, front, filling, sealing⟩
      · rfl
      · cases filling <;> cases sealing <;> rfl
    have rollFieldsEq : rollFields = rollFieldBytes (s.definition w) s.rolls[w] := by
      simp only [rollFields, rollFieldBytes]
      cases s.definition w with
      | none => rfl
      | some d =>
        simp only [Option.map_some, Definition.targetPosition]
        cases d.geometry <;> cases s.rolls[w] <;> rfl
    have slotEntryEq : slotEntry = fun i => slotBytes (s.slot w i) := by
      funext i
      simp only [slotEntry]
      rcases s.slot w i with _ | ⟨state, pins, inFlight, waiting, hold⟩
      · rfl
      · cases state <;> dsimp only <;> rfl
    have viewBytesEq : viewBytes = viewRecord := by
      funext v
      simp only [viewBytes, viewRecord]
      cases v <;> rfl
    have recordEq : codes ++ slotFields ++ rollFields ++ [0] ++ slotNumbers.flatMap slotEntry =
        windowStatusRecord s w := by
      have heads : codes = (windowStatusRecord s w).take 6 := by
        refine congrArg₂ List.cons ?_ (congrArg₂ List.cons ?_ (congrArg₂ List.cons ?_ (congrArg₂ List.cons ?_
          (congrArg₂ List.cons rfl (congrArg₂ List.cons ?_ rfl)))))
        · cases s.windows[w].state <;> rfl
        · cases s.definition w with
          | none => cases s.windows[w].state <;> rfl
          | some d =>
            simp only [Option.map_some]
            cases s.windows[w].state <;> cases d.isSlotted <;> rfl
        · cases s.windows[w].haltCause with
          | none => cases s.windows[w].state <;> rfl
          | some cause => cases s.windows[w].state <;> cases cause <;> rfl
        · cases s.windows[w].state <;> rfl
        · rfl
      rw [slotFieldsEq, rollFieldsEq, slotEntryEq, heads]
      rfl
    refine ⟨exec_readWindowDefinition awake rest, ?_, fun c => ?_⟩
    · refine congrArg _ ((takeRead_captures awake (Nat.succ_le_succ (Nat.zero_le _))).trans ?_)
      simp only [List.getD_cons_zero, number_byteOf (show 16 ≤ 256 by decide), recordEq]
      rfl
    · refine congrArg _ ((takeRead_captures awake (Nat.succ_le_succ (Nat.succ_le_succ (Nat.zero_le _)))).trans ?_)
      simp only [List.getD_cons_zero, List.getD_cons_succ, number_byteOf (show 16 ≤ 256 by decide),
        number_byteOf (show 8 ≤ 256 by decide), viewBytesEq]
      rfl
  · refine congrArg _ ((takeRead_captures awake (Nat.succ_le_succ (Nat.zero_le _))).trans ?_)
    simp only [List.getD_cons_zero, number_byteOf (show 8 ≤ 256 by decide)]
    rcases s.consumers[c] with _ | ⟨master, source, idle⟩
    · rfl
    · cases source <;> rfl
  · constructor <;>
    · refine congrArg _ ((takeRead_captures awake (Nat.succ_le_succ (Nat.zero_le _))).trans ?_)
      simp only [List.getD_cons_zero, number_ge high]
      rfl
  · refine congrArg _ ((takeRead_captures awake (Nat.succ_le_succ (Nat.zero_le _))).trans ?_)
    simp only [List.getD_cons_zero, number_ge high]
    rfl
  · refine congrArg _ ((takeRead_captures awake (Nat.succ_le_succ (Nat.succ_le_succ (Nat.zero_le _)))).trans ?_)
    simp only [List.getD_cons_zero, List.getD_cons_succ]
    rcases high with high | high
    · simp only [number_ge high]
      rfl
    · simp only [number_ge high]
      cases number 16 a.toNat <;> rfl
  · refine congrArg _ ((takeRead_captures awake (Nat.zero_le _)).trans ?_)
    simp only [partRecord, busyWindows_eq, placesInUse, flagByte, decide_eq_true_eq]
    rfl
  · refine congrArg _ ((takeRead_captures awake (Nat.zero_le _)).trans ?_)
    simp only [resultBytes]
    cases s.link.result.result <;> rfl
  · simp only [readFrames, List.forall_mem_cons]
    exact ⟨fun h => congrArg _ (takeRead_short awake h), fun h => congrArg _ (takeRead_short awake h),
      fun h => congrArg _ (takeRead_short awake h), fun h => congrArg _ (takeRead_short awake h), nofun, nofun, nofun,
      nofun⟩

end Sys2Proof
end


section
/-! SUPPORT. The frames of the link on its pins (R151): the commands that a frame comes to, and the steps that clock it
in. -/

namespace Sys2Proof.Machine

/-! ### The commands of a frame (R152, R153, R168) -/

theorem takeWrite_asleep {code : Byte} {ok : Bool} {owner : State → Answer} {s : State} (h : s.link.awaitRise = true) :
    takeWrite code ok owner s = s := if_pos h

theorem takeRead_asleep {code : Byte} {selectors : Nat} {params : List Byte} {capture : State → List Byte} {s : State}
    (h : s.link.awaitRise = true) : takeRead code selectors params capture s = s := if_pos h

theorem readFrames_eq (params : List Byte) :
    readFrames params = readCommands.map (fun x => (x.2.2 params, x.1, x.2.1)) := rfl

theorem readTaken_frame {params : List Byte} {x : Instr × Byte × Nat} (h : x ∈ readFrames params)
    (length : params.length = x.2.2) : readTaken (x.2.1 :: params) = some x.1 := by
  obtain ⟨command, lookup, same⟩ := readCommands_lookup h
  simp only [readTaken, lookup, length, if_true, same]

/-- Bytes that are no whole read command come to none. -/
theorem readTaken_incomplete {code : Byte} {params : List Byte}
    (h : ∀ x ∈ readFrames params, x.2.1 = code → params.length ≠ x.2.2) : readTaken (code :: params) = none := by
  simp only [readTaken]
  split
  · next selectors command lookup =>
    obtain ⟨before, after, split, -⟩ := List.lookup_eq_some_iff.mp lookup
    have member : (command params, code, selectors) ∈ readFrames params := by
      rw [readFrames_eq]
      exact List.mem_map.mpr ⟨(code, selectors, command), split ▸ List.mem_append_right _ (List.mem_cons_self ..), rfl⟩
    exact if_neg (h _ member rfl)
  · rfl

theorem readTaken_other {params tail : List Byte} {x : Instr × Byte × Nat} (h : x ∈ readFrames params)
    (length : tail.length ≠ x.2.2) : readTaken (x.2.1 :: tail) = none := by
  obtain ⟨command, lookup, -⟩ := readCommands_lookup h
  simp only [readTaken, lookup, length, if_false]

theorem readTaken_of_lookup {code : Byte} (h : readCommands.lookup code = none) (params : List Byte) :
    readTaken (code :: params) = none := by
  simp only [readTaken, h]

theorem writeTaken_read {params : List Byte} {x : Instr × Byte × Nat} (h : x ∈ readFrames params) :
    writeTaken (x.2.1 :: params) = none := by
  obtain ⟨command, lookup, -⟩ := readCommands_lookup h
  simp only [writeTaken, lookup]
  rfl

set_option maxRecDepth 4000 in
theorem lookup_unknown {code : Byte} (h : namesCommand code = false) :
    readCommands.lookup code = none ∧ writeCommands.lookup code = none := by
  have all : ∀ n : Fin 256, namesCommand (BitVec.ofFin (w := 8) n) = false →
      (readCommands.lookup (BitVec.ofFin (w := 8) n)).isNone = true ∧
        (writeCommands.lookup (BitVec.ofFin (w := 8) n)).isNone = true := by decide
  simpa using all code.toFin h

/-- The write command, of a known or an unknown code, that a frame comes to when SSEL rises. -/
theorem writeTaken_command {code : Byte} {params : List Byte} {c : Instr}
    (h : (c, code) ∈ (fixedLengthCommands params).map (fun x => (x.1, x.2.1)) ∨ (c = .defineWindow params ∧ code = 0x01) ∨
      (c = .unknownCommandFrame code params ∧ namesCommand code = false)) :
    readCommands.lookup code = none ∧ writeTaken (code :: params) = some c := by
  rcases h with fixed | ⟨rfl, rfl⟩ | ⟨rfl, unknown⟩
  · obtain ⟨x, member, same⟩ := List.mem_map.mp fixed
    obtain ⟨rfl, rfl⟩ := Prod.mk.inj same
    exact writeTaken_fixedLength member
  · exact ⟨rfl, rfl⟩
  · obtain ⟨read, write⟩ := lookup_unknown unknown
    refine ⟨read, ?_⟩
    simp only [writeTaken, read, write]
    rfl

/-! ### Edges (R151) -/

theorem steps_one (s : State) : steps 1 s = step s := by
  simp only [steps]
  cases step s <;> rfl

theorem step_begin {rest : List LinkEdge} {s : State} (queue : s.pending = []) (edges : s.edges = .sselFall :: rest)
    (idle : s.link.frame = none) (awake : s.link.awaitRise = false) : step s = .next (s.atFrame rest .start) := by
  rw [step_edge queue edges]
  refine congrArg _ (if_neg ?_)
  simp [idle, awake]

/-- A rising SCK with the last bit of a byte: the byte is complete, and a read command is taken where it ends one. -/
theorem sckRises_last {f : Frame} {b : Byte} {s : State} (frame : s.link.frame = some f)
    (bits : f.bits = (List.range 7).map b.getMsbD) :
    sckRises (b.getMsbD 7) s =
      match readTaken (f.bytes ++ [b]) with
      | some c => exec c (s.updLink (fun l => { l with frame := some ⟨f.bytes ++ [b], [], f.out.tail, f.sdo⟩ }))
      | none => .next (s.updLink (fun l => { l with frame := some ⟨f.bytes ++ [b], [], f.out.tail, f.sdo⟩ })) := by
  have byte : byteOfBits (f.bits ++ [b.getMsbD 7]) = b := bits ▸ byteOfBits_getMsbD b
  have shifted : f.shiftIn (b.getMsbD 7) = ⟨f.bytes ++ [byteOfBits (f.bits ++ [b.getMsbD 7])], [], f.out.tail, f.sdo⟩ :=
    Frame.shift_last f.bytes f.out _ f.sdo (bits ▸ rfl : f.bits.length = 7)
  rw [byte] at shifted
  simp only [sckRises, frame, shifted, if_true] <;> rfl

theorem sselRises_frame {f : Frame} {s : State} (frame : s.link.frame = some f) :
    sselRises s = match writeTaken f.bytes with
      | some c => exec c s
      | none => .next (s.updLink (fun l => { l with frame := none })) := by
  simp only [sselRises, frame] <;> rfl

/-- Bytes are received one after another while none of them completes a read command. -/
theorem steps_unread {s : State} (hp : s.pending = []) (rest : List LinkEdge) : ∀ (more bytes : List Byte),
    (∀ first last, more = first ++ last → first ≠ [] → readTaken (bytes ++ first) = none) →
    steps (16 * more.length) (s.atFrame (more.flatMap byteEdges ++ rest) ⟨bytes, [], [], false⟩) =
      .next (s.atFrame rest ⟨bytes ++ more, [], [], false⟩)
  | [], bytes, _ => by simp [steps]
  | b :: more, bytes, unread => by
    have first := steps_byte hp bytes b (more.flatMap byteEdges ++ rest) (unread [b] more rfl nofun)
    rw [List.flatMap_cons, List.append_assoc, List.length_cons, Nat.mul_succ, Nat.add_comm, steps_add 16 _ first]
    refine (steps_unread hp rest more (bytes ++ [b]) fun front back split _ => ?_).trans (by rw [List.append_assoc]; rfl)
    rw [List.append_assoc]
    exact unread (b :: front) back (congrArg _ split) nofun

/-- A whole frame and the bits of an incomplete byte clocked in, until SSEL rises. -/
theorem steps_frame {s : State} (queue : s.pending = []) (idle : s.link.frame = none) (awake : s.link.awaitRise = false)
    {code : Byte} (write : readCommands.lookup code = none) (params : List Byte) {extra : List Bool}
    (short : extra.length < 8) (rest : List LinkEdge)
    (edges : s.edges = [.sselFall] ++ (code :: params).flatMap byteEdges ++ extra.flatMap bitEdges ++ rest) :
    steps (((code :: params).flatMap byteEdges).length + 2 * extra.length + 1) s =
      .next (s.atFrame rest ⟨code :: params, extra, [], false⟩) := by
  have begins : steps 1 s = .next (s.atFrame ((code :: params).flatMap byteEdges ++ (extra.flatMap bitEdges ++ rest))
      ⟨[], [], [], false⟩) := by
    simp only [steps, step_begin (rest := (code :: params).flatMap byteEdges ++ (extra.flatMap bitEdges ++ rest)) queue
      (by rw [edges]; simp) idle awake]
    rfl
  have bytes := steps_unread queue (extra.flatMap bitEdges ++ rest) (code :: params) [] (fun first last split some => by
    obtain ⟨_, tail, rfl⟩ := List.exists_cons_of_ne_nil some
    cases split
    exact readTaken_of_lookup write tail)
  have bits := steps_bits queue (code :: params) rest extra [] short
  have count : ((code :: params).flatMap byteEdges).length = 16 * (code :: params).length := by
    rw [List.length_flatMap]
    simp [byteEdges, bitEdges]
    omega
  rw [count, show 16 * (code :: params).length + 2 * extra.length + 1 =
    1 + (16 * (code :: params).length + 2 * extra.length) by omega]
  rw [steps_add 1 _ begins, steps_add _ _ bytes]
  exact bits

/-- A frame that ends a read command clocked in, up to the last bit of its last byte. -/
theorem steps_readFrame {s : State} (queue : s.pending = []) (idle : s.link.frame = none)
    (awake : s.link.awaitRise = false) {params : List Byte} {x : Instr × Byte × Nat} (read : x ∈ readFrames params)
    (length : params.length = x.2.2) (rest : List LinkEdge)
    (edges : s.edges = [.sselFall] ++ ((x.2.1 :: params).flatMap byteEdges).dropLast ++ rest) :
    steps ((x.2.1 :: params).flatMap byteEdges).length s = exec x.1 (s.atFrame rest ⟨x.2.1 :: params, [], [], false⟩) := by
  obtain ⟨init, last, split⟩ : ∃ init last, x.2.1 :: params = init ++ [last] :=
    ⟨_, _, (List.dropLast_append_getLast (List.cons_ne_nil x.2.1 params)).symm⟩
  have count (bytes : List Byte) : (bytes.flatMap byteEdges).length = 16 * bytes.length := by
    rw [List.length_flatMap]
    simp [byteEdges, bitEdges]
    omega
  have lastByte : ((x.2.1 :: params).flatMap byteEdges).dropLast = init.flatMap byteEdges ++
      (((List.range 7).map last.getMsbD).flatMap bitEdges ++ [.sckRise (last.getMsbD 7)]) := by
    rw [split, List.flatMap_append, List.dropLast_append_of_ne_nil (by exact nofun)]
    rfl
  have begins : steps 1 s = .next (s.atFrame (init.flatMap byteEdges ++
      (((List.range 7).map last.getMsbD).flatMap bitEdges ++ .sckRise (last.getMsbD 7) :: rest)) ⟨[], [], [], false⟩) := by
    simp only [steps, step_begin (rest := init.flatMap byteEdges ++
      (((List.range 7).map last.getMsbD).flatMap bitEdges ++ .sckRise (last.getMsbD 7) :: rest)) queue
      (by rw [edges, lastByte]; simp) idle awake]
    rfl
  have bytes := steps_unread queue
    (((List.range 7).map last.getMsbD).flatMap bitEdges ++ .sckRise (last.getMsbD 7) :: rest) init [] (fun first back apart some => by
      obtain ⟨_, tail, rfl⟩ := List.exists_cons_of_ne_nil some
      rw [apart] at split
      have size := congrArg List.length split
      simp only [List.length_cons, List.length_append, List.length_nil] at size
      obtain ⟨rfl, -⟩ := List.cons.inj split
      exact readTaken_other read (by omega))
  have bits := steps_bits queue init (.sckRise (last.getMsbD 7) :: rest) ((List.range 7).map last.getMsbD) [] (by simp)
  have last_bit : steps 1 (s.atFrame (.sckRise (last.getMsbD 7) :: rest)
      ⟨init, (List.range 7).map last.getMsbD, [], false⟩) =
      exec x.1 (s.atFrame rest ⟨x.2.1 :: params, [], [], false⟩) := by
    rw [steps_one, step_edge (e := .sckRise (last.getMsbD 7)) (rest := rest) (by exact queue) rfl]
    refine (sckRises_last (s := s.atFrame rest ⟨init, (List.range 7).map last.getMsbD, [], false⟩) rfl rfl).trans ?_
    simp only [← split, readTaken_frame read length]
    rfl
  rw [count, split, List.length_append, List.length_singleton, show 16 * (init.length + 1) =
    1 + (16 * init.length + (2 * ((List.range 7).map last.getMsbD).length + 1)) by simp; omega]
  rw [steps_add 1 _ begins, steps_add _ _ bytes, List.nil_append, steps_add _ _ bits, ← split]
  exact last_bit

end Sys2Proof.Machine

namespace Sys2Proof
open Machine

/-- Settles O40: each edge by the branches of the pins' definition, whole frames byte by byte. -/
theorem linkFramesEdgeByEdge : Obligations.LinkFramesEdgeByEdge := by
  refine ⟨fun b s t h => ?_, fun s => rfl, fun params s asleep => ⟨?_, ?_, fun code => ?_, ?_⟩, fun s => ⟨?_, ?_⟩, ?_, ?_⟩
  · cases h
    exact ⟨rfl, rfl⟩
  · simp only [fixedLengthCommands, List.forall_mem_cons]
    refine ⟨?_, ?_, ?_, ?_, ?_, ?_, ?_, ?_, ?_, ?_, ?_, ?_, ?_, ?_, nofun⟩ <;>
      exact congrArg _ (takeWrite_asleep asleep)
  · exact congrArg _ (takeWrite_asleep asleep)
  · exact congrArg _ ((congrArg _ (takeWrite_asleep asleep)).trans (ite_self _))
  · simp only [readFrames, List.forall_mem_cons]
    refine ⟨?_, ?_, ?_, ?_, congrArg _ (if_pos asleep), ?_, ?_, nofun⟩ <;>
      exact congrArg _ (takeRead_asleep asleep)
  · intro f frame
    simp only [Link.sdo, frame]
  · intro idle awake
    simp only [Link.sdo, idle, awake]
    rfl
  · intro e rest s queue edges within
    rw [step_edge queue edges]
    have unframed (g : Option Frame) (same : g = s.link.frame) : { s with edges := rest } = within g := by
      subst same
      rfl
    have unshifted (sdi : Bool) (idle : s.link.frame = none) :
        takeEdge (.sckRise sdi) { s with edges := rest } = .next { s with edges := rest } := by
      simp only [takeEdge, sckRises, idle]
    refine ⟨fun idle asleep => ?_, fun idle awake => ?_, fun f frame => ⟨?_, ?_, ?_, ?_, ?_⟩⟩
    · have waits (b : Bool) (same : b = s.link.awaitRise) :
          ({ s with edges := rest } : State) = { s with edges := rest, link := { s.link with awaitRise := b } } := by
        subst same
        rfl
      cases e with
      | sselRise => exact (by simp only [takeEdge, sselRises, idle, asleep, if_true] :
          takeEdge .sselRise { s with edges := rest } = exec .sselRiseAfterReset { s with edges := rest })
      | sselFall => exact congrArg _ ((if_pos (.inl asleep)).trans (waits true asleep.symm))
      | sckFall =>
        exact congrArg _ ((unframed (s.link.frame.map Frame.shiftOut) (by rw [idle]; rfl)).symm.trans
          (waits true asleep.symm))
      | sckRise sdi => exact (unshifted sdi idle).trans (congrArg _ (waits true asleep.symm))
    · cases e with
      | sselRise =>
        have rises : takeEdge .sselRise { s with edges := rest } = .next { s with edges := rest } := by
          simp only [takeEdge, sselRises, idle, awake, Bool.false_eq_true, if_false]
        exact rises.trans (congrArg _ (unframed none idle.symm))
      | sselFall => exact congrArg _ (if_neg (by simp [idle, awake]))
      | sckFall => exact congrArg (fun g => Host.Outcome.next (within g)) (by rw [idle]; rfl)
      | sckRise sdi => exact (unshifted sdi idle).trans (congrArg _ (unframed none idle.symm))
    · rintro rfl
      exact congrArg _ ((if_pos (.inr (by simp [frame]))).trans (unframed _ frame.symm))
    · rintro rfl
      exact congrArg (fun g => Host.Outcome.next (within g)) (by rw [frame]; rfl)
    · rintro sdi rfl short
      simp only [takeEdge, sckRises, frame, Frame.shiftIn, short, if_true]
      rw [if_neg (by simp)]
      rfl
    · rintro b rfl bits completed
      have last : takeEdge (.sckRise (b.getMsbD 7)) { s with edges := rest } = _ := sckRises_last frame bits
      rw [last]
      refine ⟨fun code params split x read same length => ?_, fun other => ?_⟩
      · subst same
        simp only [split, readTaken_frame read length]
        exact congrArg _ (by simp only [completed, within, split]; rfl)
      · obtain ⟨code, params, split⟩ := List.exists_cons_of_ne_nil (List.append_ne_nil_of_right_ne_nil f.bytes
          (List.cons_ne_nil b []))
        simp only [split, readTaken_incomplete (other code params split)]
        exact congrArg _ (by simp only [completed, within, split]; rfl)
    · rintro rfl
      have rises : takeEdge .sselRise { s with edges := rest } = _ := sselRises_frame frame
      have current := unframed _ frame.symm
      rw [rises]
      refine ⟨fun empty => by rw [empty]; rfl, fun code params split => ?_⟩
      rw [split]
      refine ⟨fun x read same => ?_, fun x fixed same => ?_, fun define => ?_, fun unknown => ?_⟩
      · subst same
        rw [writeTaken_read read]
        rfl
      · subst same
        rw [(writeTaken_fixedLength fixed).2, ← current]
      · subst define
        rw [← current]
        rfl
      · rw [(writeTaken_command (.inr (.inr ⟨rfl, unknown⟩))).2, ← current]
  · intro code params rest s queue idle awake clocked arrived
    refine ⟨fun extra c short command edges => ?_, fun x read same length edges => ?_⟩
    · obtain ⟨write, taken⟩ := writeTaken_command command
      have received := steps_frame queue idle awake write params short (.sselRise :: rest) (by rw [edges]; simp [clocked])
      rw [show clocked.length + 2 * extra.length + 2 = (clocked.length + 2 * extra.length + 1) + 1 from rfl,
        steps_add _ 1 received, steps_one, step_edge (e := .sselRise) (rest := rest) (by exact queue) rfl]
      refine (sselRises_frame (s := s.atFrame rest ⟨code :: params, extra, [], false⟩) rfl).trans ?_
      simp only [taken]
      rfl
    · subst same
      exact steps_readFrame queue idle awake read length rest edges

end Sys2Proof
end


section
/-! SUPPORT. The DEFINE WINDOW frame (R28, R169): what its fields give back, the checks put to it, and the first check
that fails of each command (R28 to R34, R107, R137). -/

namespace Sys2Proof.Machine

/-! ### The bytes of a definition (R169) -/

/-- Bytes 2 to 19 of a definition in the layout of DEFINE WINDOW. -/
def defineHead (d : Definition) : List Byte :=
  [BitVec.ofNat 8 (if d.isSlotted then 1 else 2)] ++ leBytes 5 d.base.toNat ++ [BitVec.ofNat 8 d.sizeCode] ++
  leBytes 2 d.producers.toNat ++ leBytes 2 d.consumers.toNat ++ [BitVec.ofNat 8 (triggerCode d.trigger)] ++
  wordBytes d.word ++ [BitVec.ofNat 8 (policyCode d.policy)]

/-- The bytes from 23 on, which describe the slots or lines. -/
def geometryBytes : Geometry → List Byte
  | .slotted blocks coverage bases =>
    [BitVec.ofNat 8 blocks, BitVec.ofNat 8 bases.length, BitVec.ofNat 8 (coverageCode coverage)] ++
    bases.flatMap (fun a => leBytes 5 a.toNat)
  | .rolling top visible staging bottom base =>
    [BitVec.ofNat 8 top, BitVec.ofNat 8 visible, BitVec.ofNat 8 staging, BitVec.ofNat 8 bottom] ++ leBytes 5 base.toNat

theorem length_wordBytes (a : Option Addr) : (wordBytes a).length = 5 := by
  cases a <;> exact length_leBytes ..

theorem length_defineHead (d : Definition) : (defineHead d).length = 18 := by
  simp [defineHead, length_wordBytes]

theorem definitionBytes_eq (d : Definition) :
    definitionBytes d = defineHead d ++ (leBytes 2 d.limit ++ flagByte d.haltOnFault :: geometryBytes d.geometry) := by
  simp only [definitionBytes, defineHead, List.append_assoc, List.cons_append, List.nil_append]
  cases d.geometry <;> rfl

/-- A definition's bytes, with the limit and the halt byte that a frame may give. -/
theorem Definition.givenBy_iff {d : Definition} {bytes : List Byte} : d.givenBy bytes ↔ ∃ (limit : Nat) (halt : Byte),
    bytes = defineHead d ++ leBytes 2 limit ++ halt :: geometryBytes d.geometry ∧
    (limit = d.limit ∨ (limit = 0 ∧ d.limit = 1000)) ∧ (halt ≠ 0 ↔ d.haltOnFault = true) := by
  have head : (definitionBytes d).take 18 = defineHead d := by
    rw [definitionBytes_eq, List.take_left' (length_defineHead d)]
  have tail : (definitionBytes d).drop 21 = geometryBytes d.geometry := by
    have long : (defineHead d ++ (leBytes 2 d.limit ++ [flagByte d.haltOnFault])).length = 21 := by
      simp [length_defineHead]
    have split : definitionBytes d =
        defineHead d ++ (leBytes 2 d.limit ++ [flagByte d.haltOnFault]) ++ geometryBytes d.geometry := by
      rw [definitionBytes_eq, List.append_assoc, List.append_assoc]
      rfl
    rw [split, List.drop_left' long]
  rw [Definition.givenBy, head, tail]

theorem Definition.givenBy_definitionBytes (d : Definition) : d.givenBy (definitionBytes d) :=
  Definition.givenBy_iff.mpr ⟨d.limit, flagByte d.haltOnFault, by rw [definitionBytes_eq, List.append_assoc], .inl rfl,
    by cases d.haltOnFault <;> decide⟩

theorem toNat_ofNat8 {n : Nat} (h : n < 256) : (BitVec.ofNat 8 n).toNat = n :=
  (BitVec.toNat_ofNat ..).trans (Nat.mod_eq_of_lt h)

theorem leNat_addr (a : Addr) : leNat (leBytes 5 a.toNat) = a.toNat :=
  (leNat_leBytes 5 a.toNat).trans (Nat.mod_eq_of_lt a.isLt)

theorem wordField_of_bytes {word : Option Addr} {frame : List Byte} {offset : Nat}
    (aligned : ∀ a, word = some a → a.toNat % 8 = 0) (h : field frame offset 5 = leNat (wordBytes word)) :
    wordField frame offset = word := by
  rw [wordField, addrField, h]
  cases word with
  | none => exact if_pos rfl
  | some a =>
    have same : BitVec.ofNat 40 (leNat (wordBytes (some a))) = a := by
      rw [wordBytes, leNat_addr, BitVec.ofNat_toNat, BitVec.setWidth_eq]
    rw [same, if_neg (ne_allOnes_of_aligned (aligned a rfl))]

/-! ### The frame of a definition (R28, R169) -/

/-- The fields of a frame that carries a definition, up to the geometry. -/
structure Carries (frame : List Byte) (w : Fin 16) (d : Definition) : Prop where
  window : field frame 1 1 = w.val
  kind : field frame 2 1 = if d.isSlotted = true then 1 else 2
  base : field frame 3 5 = d.base.toNat
  size : field frame 8 1 = d.sizeCode
  producers : field frame 9 2 = d.producers.toNat
  consumers : field frame 11 2 = d.consumers.toNat
  trigger : field frame 13 1 = triggerCode d.trigger
  word : wordField frame 14 = d.word
  policy : field frame 19 1 = policyCode d.policy
  limit : (if field frame 20 2 = 0 then 1000 else field frame 20 2) = d.limit
  halt : field frame 22 1 ≠ 0 ↔ d.haltOnFault = true
  geometry : frame.drop 23 = geometryBytes d.geometry
  length : frame.length = 23 + (geometryBytes d.geometry).length

theorem Definition.carried {w : Fin 16} {d : Definition} {bytes : List Byte} (wf : d.wf) (given : d.givenBy bytes) :
    Carries (0x01 :: byteOf w :: bytes) w d := by
  obtain ⟨sizeCode, -, -, low, high, aligned, -⟩ := wf
  obtain ⟨limit, halt, rfl, limitGiven, haltGiven⟩ := Definition.givenBy_iff.mp given
  obtain ⟨word, wordIs⟩ : ∃ n, wordBytes d.word = leBytes 5 n := by
    cases d.word <;> exact ⟨_, rfl⟩
  generalize shape : (0x01 : Byte) :: byteOf w ::
    (defineHead d ++ leBytes 2 limit ++ halt :: geometryBytes d.geometry) = frame
  rw [defineHead, wordIs] at shape
  have limitLow : limit < 2 ^ 16 := by
    rcases limitGiven with same | ⟨zero, -⟩ <;> omega
  have limitField : field frame 20 2 = limit := shape ▸ (leNat_leBytes 2 limit).trans (Nat.mod_eq_of_lt limitLow)
  refine ⟨shape ▸ toNat_byteOf (by decide) w, ?_, shape ▸ leNat_addr d.base, shape ▸ toNat_ofNat8 (by omega),
    shape ▸ (leNat_leBytes 2 _).trans (Nat.mod_eq_of_lt d.producers.isLt),
    shape ▸ (leNat_leBytes 2 _).trans (Nat.mod_eq_of_lt (Nat.lt_trans d.consumers.isLt (by decide))),
    ?_, wordField_of_bytes aligned (wordIs ▸ shape ▸ rfl), ?_, ?_, ?_, shape ▸ rfl, ?_⟩
  · cases slotted : d.isSlotted <;> rw [slotted] at shape <;> exact shape ▸ rfl
  · cases trigger : d.trigger <;> rw [trigger] at shape <;> exact shape ▸ rfl
  · cases policy : d.policy <;> rw [policy] at shape <;> exact shape ▸ rfl
  · rw [limitField]
    rcases limitGiven with rfl | ⟨rfl, thousand⟩
    · exact if_neg (by omega)
    · exact thousand.symm
  · have byte : field frame 22 1 = halt.toNat := shape ▸ rfl
    rw [byte, ← haltGiven]
    exact not_congr (by rw [← BitVec.toNat_inj]; rfl)
  · rw [← shape]
    simp only [List.length_cons, List.length_append, List.length_nil, length_leBytes]
    omega

theorem field_add (frame : List Byte) (a b size : Nat) : field frame (a + b) size = field (frame.drop a) b size := by
  rw [field, field, List.drop_drop]

theorem field_bases {bases : List Addr} {k : Nat} (h : k < bases.length) :
    field (bases.flatMap (fun a => leBytes 5 a.toNat)) (5 * k) 5 = bases[k].toNat := by
  induction bases generalizing k with
  | nil => cases h
  | cons a bases ih =>
    cases k with
    | zero => exact leNat_addr a
    | succ k =>
      rw [List.flatMap_cons, Nat.mul_succ, Nat.add_comm, field_add, List.drop_left' (length_leBytes ..)]
      exact ih (Nat.lt_of_succ_lt_succ h)

/-- The geometry fields of a slotted definition's frame. -/
theorem Carries.slotted {frame : List Byte} {w : Fin 16} {d : Definition} (carries : Carries frame w d) (wf : d.wf)
    {blocks : Nat} {coverage : Coverage} {bases : List Addr} (shape : d.geometry = .slotted blocks coverage bases) :
    field frame 23 1 = blocks ∧ field frame 24 1 = bases.length ∧ field frame 25 1 = coverageCode coverage ∧
    ∀ k (h : k < bases.length), field frame (26 + 5 * k) 5 = bases[k].toNat := by
  obtain ⟨-, -, -, -, -, -, geometry⟩ := wf
  rw [shape] at geometry
  obtain ⟨-, blocksHigh, -, basesHigh, -⟩ := geometry
  have tail := carries.geometry
  rw [shape] at tail
  refine ⟨?_, ?_, ?_, fun k h => ?_⟩
  · rw [← Nat.add_zero 23, field_add, tail]
    exact toNat_ofNat8 (by omega)
  · rw [show 24 = 23 + 1 from rfl, field_add, tail]
    exact toNat_ofNat8 (by omega)
  · rw [show 25 = 23 + 2 from rfl, field_add, tail]
    cases coverage <;> rfl
  · rw [show 26 + 5 * k = 23 + (3 + 5 * k) by omega, field_add, tail, field_add]
    exact field_bases h

/-- The geometry fields of a rolling definition's frame. -/
theorem Carries.rolling {frame : List Byte} {w : Fin 16} {d : Definition} (carries : Carries frame w d) (wf : d.wf)
    {top visible staging bottom : Nat} {base : Addr} (shape : d.geometry = .rolling top visible staging bottom base) :
    field frame 23 1 = top ∧ field frame 24 1 = visible ∧ field frame 25 1 = staging ∧ field frame 26 1 = bottom ∧
    field frame 27 5 = base.toNat := by
  obtain ⟨-, -, -, -, -, -, geometry⟩ := wf
  rw [shape] at geometry
  obtain ⟨topHigh, -, visibleHigh, -, stagingHigh, bottomHigh, -⟩ := geometry
  have tail := carries.geometry
  rw [shape] at tail
  refine ⟨?_, ?_, ?_, ?_, ?_⟩
  · rw [← Nat.add_zero 23, field_add, tail]
    exact toNat_ofNat8 (by omega)
  · rw [show 24 = 23 + 1 from rfl, field_add, tail]
    exact toNat_ofNat8 (by omega)
  · rw [show 25 = 23 + 2 from rfl, field_add, tail]
    exact toNat_ofNat8 (by omega)
  · rw [show 26 = 23 + 3 from rfl, field_add, tail]
    exact toNat_ofNat8 (by omega)
  · rw [show 27 = 23 + 4 from rfl, field_add, tail]
    exact leNat_addr base

theorem addrField_eq {frame : List Byte} {offset : Nat} {a : Addr} (h : field frame offset 5 = a.toNat) :
    addrField frame offset = a := by
  rw [addrField, h, BitVec.ofNat_toNat, BitVec.setWidth_eq]

/-- A frame that carries a definition is read back as it. -/
theorem Carries.definitionOf {frame : List Byte} {w : Fin 16} {d : Definition} (carries : Carries frame w d) (wf : d.wf) :
    definitionOf frame = d := by
  have geometry : (if field frame 2 1 = 1 then
        Geometry.slotted (field frame 23 1) (coverageOf (field frame 25 1))
          ((List.range (field frame 24 1)).map (fun s => addrField frame (26 + 5 * s)))
      else .rolling (field frame 23 1) (field frame 24 1) (field frame 25 1) (field frame 26 1) (addrField frame 27)) =
      d.geometry := by
    rw [carries.kind]
    cases shape : d.geometry with
    | slotted blocks coverage bases =>
      obtain ⟨a, b, c, bytes⟩ := carries.slotted wf shape
      have same : (List.range bases.length).map (fun s => addrField frame (26 + 5 * s)) = bases :=
        List.ext_getElem (by simp) fun k h _ => by
          rw [List.getElem_map, List.getElem_range, addrField_eq (bytes k (by simpa using h))]
      have slotted : d.isSlotted = true := by rw [Definition.isSlotted, shape]
      rw [if_pos slotted, if_pos rfl, a, b, c, same]
      cases coverage <;> rfl
    | rolling top visible staging bottom base =>
      obtain ⟨a, b, c, e, f⟩ := carries.rolling wf shape
      have rolling : ¬ d.isSlotted = true := by rw [Definition.isSlotted, shape]; nofun
      rw [if_neg rolling, if_neg (by decide), a, b, c, e, addrField_eq f]
  have trigger : triggerOf (field frame 13 1) = d.trigger := by
    rw [carries.trigger]
    cases d.trigger <;> rfl
  have policy : policyOf (field frame 19 1) = d.policy := by
    rw [carries.policy]
    cases d.policy <;> rfl
  have halt : decide (field frame 22 1 ≠ 0) = d.haltOnFault := by
    rw [Bool.eq_iff_iff, decide_eq_true_eq]
    exact carries.halt
  rw [Machine.definitionOf, addrField_eq carries.base, carries.size, carries.producers, carries.consumers, trigger,
    carries.word, policy, carries.limit, halt, geometry]
  simp

/-! ### The first check that fails -/

theorem firstBreach_cons {p : Prop} {i j : Nat} {rest : List (Prop × Nat)} :
    FirstBreach ((p, i) :: rest) j ↔ (¬ p ∧ i = j) ∨ (p ∧ FirstBreach rest j) := by
  constructor
  · rintro ⟨before, q, after, split, fails, pass⟩
    cases before with
    | nil =>
      cases split
      exact .inl ⟨fails, rfl⟩
    | cons c before =>
      cases split
      exact .inr ⟨pass (p, i) (List.mem_cons_self ..), before, q, after, rfl, fails,
        fun c member => pass c (List.mem_cons_of_mem _ member)⟩
  · rintro (⟨fails, rfl⟩ | ⟨holds, before, q, after, rfl, fails, pass⟩)
    · exact ⟨[], p, rest, rfl, fails, nofun⟩
    · exact ⟨(p, i) :: before, q, after, rfl, fails, List.forall_mem_cons.mpr ⟨holds, pass⟩⟩

theorem not_firstBreach_nil {j : Nat} : ¬ FirstBreach [] j := by
  rintro ⟨before, q, after, split, -⟩
  cases before <;> cases split

/-- A check as the model makes it, and as it is stated, with the same index. -/
def Agrees (b : Bool × Nat) (p : Prop × Nat) : Prop := (b.1 = true ↔ p.1) ∧ b.2 = p.2

/-- Where the checks agree one by one, so do the first ones that fail. -/
theorem firstFailing_of_breach {made : List (Bool × Nat)} {stated : List (Prop × Nat)}
    (agree : List.Forall₂ Agrees made stated) {i : Nat} (h : FirstBreach stated i) : firstFailing made = some i := by
  induction agree with
  | nil => exact (not_firstBreach_nil h).elim
  | @cons b p made stated one rest ih =>
    obtain ⟨same, index⟩ := one
    rcases firstBreach_cons.mp h with ⟨fails, rfl⟩ | ⟨holds, later⟩
    · rw [firstFailing, List.find?_cons_of_pos (by simpa using mt same.mp fails)]
      exact congrArg some index
    · rw [firstFailing, List.find?_cons_of_neg (by simpa [same] using holds)]
      exact ih later

theorem firstFailing_of_all {made : List (Bool × Nat)} {stated : List (Prop × Nat)}
    (agree : List.Forall₂ Agrees made stated) (h : ∀ c ∈ stated, c.1) : firstFailing made = none := by
  induction agree with
  | nil => rfl
  | @cons b p made stated one rest ih =>
    obtain ⟨holds, later⟩ := List.forall_mem_cons.mp h
    rw [firstFailing, List.find?_cons_of_neg (by simpa [one.1] using holds)]
    exact ih later

theorem leNat_lt (bytes : List Byte) : leNat bytes < 256 ^ bytes.length := by
  induction bytes with
  | nil => decide
  | cons b bytes ih =>
    have low := b.isLt
    rw [leNat, List.length_cons, Nat.pow_succ]
    omega

theorem field_lt (frame : List Byte) (offset size : Nat) : field frame offset size < 256 ^ size :=
  Nat.lt_of_lt_of_le (leNat_lt _) (Nat.pow_le_pow_right (by decide) (List.length_take_le ..))

theorem wordField_aligned {frame : List Byte} {offset : Nat} :
    (wordField frame offset).all (fun x => decide (x.toNat % 8 = 0)) = true ↔
      field frame offset 5 = 2 ^ 40 - 1 ∨ field frame offset 5 % 8 = 0 := by
  have low := field_lt frame offset 5
  have toNat : (addrField frame offset).toNat = field frame offset 5 :=
    (BitVec.toNat_ofNat ..).trans (Nat.mod_eq_of_lt low)
  have ones : addrField frame offset = BitVec.allOnes 40 ↔ field frame offset 5 = 2 ^ 40 - 1 := by
    rw [← BitVec.toNat_inj, toNat, BitVec.toNat_allOnes]
  unfold wordField
  split
  · next h => exact ⟨fun _ => .inl (ones.mp h), fun _ => rfl⟩
  · next h =>
    rw [Option.all_some, decide_eq_true_eq, toNat]
    exact ⟨.inr, fun e => e.resolve_left (fun e => h (ones.mpr e))⟩

theorem within_iff {lo x hi : Nat} : within lo x hi = true ↔ lo ≤ x ∧ x ≤ hi := by
  simp [within]

theorem regionFits_iff {base size length : Nat} :
    regionFits base size length = true ↔ base % size = 0 ∧ base + length ≤ 2 ^ 40 := by
  simp [regionFits, Config.addressSpace]

/-- The checks of DEFINE WINDOW on its fields are those that R28 states. -/
theorem fieldChecks_agree (frame : List Byte) : List.Forall₂ Agrees (fieldChecks frame) (defineChecks frame) := by
  unfold fieldChecks defineChecks
  extract_lets slotted size a b c e units kind apart
  have slottedIff : slotted = true ↔ kind = 1 := decide_eq_true_iff
  have unitsIs : units = if kind = 1 then a else a + b + e := if_congr slottedIff rfl rfl
  refine List.rel_append ?_ ?_
  · refine .cons ⟨?_, rfl⟩ (.cons ⟨?_, rfl⟩ (.cons ⟨?_, rfl⟩ (.cons ⟨?_, rfl⟩ (.cons ⟨?_, rfl⟩ (.cons ⟨?_, rfl⟩
      (.cons ⟨?_, rfl⟩ .nil))))))
    · rw [within_iff]
      show _ ↔ kind = 1 ∨ kind = 2
      omega
    · rw [within_iff]
      exact and_iff_right (Nat.zero_le _)
    · rw [regionFits_iff, unitsIs]
    · exact decide_eq_true_iff
    · exact within_iff
    · exact wordField_aligned
    · rw [within_iff]
      omega
  · by_cases is : kind = 1
    · rw [if_pos (slottedIff.mpr is), if_pos is]
      refine List.rel_append (.cons ⟨within_iff, rfl⟩ (.cons ⟨within_iff, rfl⟩ (.cons ⟨within_iff, rfl⟩ .nil))) ?_
      rw [List.forall₂_map_left_iff, List.forall₂_map_right_iff, List.forall₂_same]
      exact fun k _ => ⟨regionFits_iff, rfl⟩
    · rw [if_neg (mt slottedIff.mp is), if_neg is]
      exact .cons ⟨within_iff.trans (and_iff_right (Nat.zero_le _)), rfl⟩ (.cons ⟨within_iff, rfl⟩
        (.cons ⟨within_iff, rfl⟩ (.cons ⟨within_iff.trans (and_iff_right (Nat.zero_le _)), rfl⟩
          (.cons ⟨regionFits_iff, rfl⟩ .nil))))

/-- The frame of a definition whose fields lie in their ranges passes the checks on them. -/
theorem fieldChecks_pass {frame : List Byte} {w : Fin 16} {d : Definition} (carries : Carries frame w d) (wf : d.wf) :
    firstFailing (fieldChecks frame) = none := by
  refine firstFailing_of_all (fieldChecks_agree frame) ?_
  have all := wf
  obtain ⟨sizeCode, aligned, ends, -, -, wordAligned, geometry⟩ := wf
  have trigger : 1 ≤ triggerCode d.trigger ∧ triggerCode d.trigger ≤ 3 := by cases d.trigger <;> decide
  have policy : policyCode d.policy = 1 ∨ policyCode d.policy = 2 := by cases d.policy <;> decide
  have consumers : d.consumers.toNat < 256 := d.consumers.isLt
  have word : field frame 14 5 = 2 ^ 40 - 1 ∨ field frame 14 5 % 8 = 0 := by
    rw [← wordField_aligned, carries.word]
    cases given : d.word with
    | none => rfl
    | some a => exact decide_eq_true (wordAligned a given)
  have base := carries.base
  have kind := carries.kind
  unfold defineChecks
  simp only [base, kind, carries.size, carries.consumers, carries.trigger, carries.policy]
  cases shape : d.geometry with
  | slotted blocks coverage bases =>
    have slotted : d.isSlotted = true := by rw [Definition.isSlotted, shape]
    obtain ⟨a, b, c, bytes⟩ := carries.slotted all shape
    rw [shape] at geometry
    obtain ⟨blocksLow, blocksHigh, basesLow, basesHigh, baseFits⟩ := geometry
    have coverageCodes : 1 ≤ coverageCode coverage ∧ coverageCode coverage ≤ 3 := by cases coverage <;> decide
    have range : blocks * d.blockSize = d.rangeLength := by rw [Definition.rangeLength, Definition.units, shape]
    simp only [slotted, a, b, c, if_true, List.forall_mem_append, List.forall_mem_cons, List.forall_mem_map, List.mem_range]
    refine ⟨⟨.inl trivial, sizeCode, ⟨aligned, range ▸ ends⟩, consumers, trigger, word, policy, nofun⟩,
      ⟨⟨blocksLow, blocksHigh⟩, ⟨basesLow, basesHigh⟩, coverageCodes, nofun⟩, fun k h => ?_⟩
    rw [bytes k h]
    exact baseFits _ (List.getElem_mem h)
  | rolling top visible staging bottom start =>
    have rolling : d.isSlotted = false := by rw [Definition.isSlotted, shape]
    obtain ⟨a, b, c, e, f⟩ := carries.rolling all shape
    rw [shape] at geometry
    obtain ⟨topHigh, visibleLow, visibleHigh, stagingLow, stagingHigh, bottomHigh, startAligned, startEnds⟩ := geometry
    have range : (top + visible + bottom) * d.blockSize = d.rangeLength := by
      rw [Definition.rangeLength, Definition.units, shape]
    simp only [rolling, a, b, c, e, f, Bool.false_eq_true, if_false, if_neg (show ¬ 2 = 1 by decide),
      List.forall_mem_append, List.forall_mem_cons]
    exact ⟨⟨.inr trivial, sizeCode, ⟨aligned, range ▸ ends⟩, consumers, trigger, word, policy, nofun⟩,
      topHigh, ⟨visibleLow, visibleHigh⟩, ⟨stagingLow, stagingHigh⟩, bottomHigh, ⟨startAligned, startEnds⟩, nofun⟩

/-- The frame of a definition has the length its kind and count ask for (R153). -/
theorem defineLengthOk_carried {frame : List Byte} {w : Fin 16} {d : Definition} (carries : Carries frame w d)
    (wf : d.wf) : defineLengthOk frame = true := by
  have length := carries.length
  unfold defineLengthOk
  extract_lets n slots
  have count : n = 23 + (geometryBytes d.geometry).length := length
  cases shape : d.geometry with
  | slotted blocks coverage bases =>
    have kind : field frame 2 1 = 1 := by rw [carries.kind, Definition.isSlotted, shape]; rfl
    have slotCount : slots = bases.length := (carries.slotted wf shape).2.1
    have long : n = 26 + 5 * bases.length := by
      rw [count, shape]
      simp only [geometryBytes, List.length_append, List.length_flatMap, length_leBytes, List.length_cons,
        List.length_nil, List.map_const', List.sum_replicate, smul_eq_mul]
      omega
    rw [if_neg (by omega), if_neg (by omega), if_neg (by omega), if_neg (by omega), slotCount]
    exact ite_eq_iff'.mpr ⟨fun _ => decide_eq_true long, fun _ => rfl⟩
  | rolling top visible staging bottom base =>
    have kind : field frame 2 1 = 2 := by rw [carries.kind, Definition.isSlotted, shape]; rfl
    have long : n = 32 := by
      rw [count, shape]
      rfl
    rw [if_neg (by omega), if_pos kind]
    exact decide_eq_true long

/-! ### The relational checks (R29 to R31) -/

theorem overlapChecks_cons (others : List Region) (i : Nat) (g : Region) (rest : List (Nat × Region)) :
    overlapChecks others ((i, g) :: rest) =
      (∀ h ∈ others, touches g h = false, i) :: overlapChecks (others ++ [g]) rest := by
  rw [overlapChecks, List.zipIdx_cons, List.map_cons, overlapChecks, Nat.zero_add, List.zipIdx_succ, List.map_map]
  refine congrArg₂ List.cons (by simp) (List.map_congr_left fun x _ => ?_)
  simp

/-- The first overlap is the first breach of the overlap checks, in whatever order the other regions are listed. -/
theorem firstOverlap_of_breach {i : Nat} {regions : List (Nat × Region)} : ∀ {others others' : List Region},
    (∀ g, g ∈ others ↔ g ∈ others') → FirstBreach (overlapChecks others' regions) i →
      firstOverlap others regions = some i := by
  induction regions with
  | nil => exact fun _ h => (not_firstBreach_nil h).elim
  | cons x rest ih =>
    intro others others' same h
    obtain ⟨j, g⟩ := x
    rw [overlapChecks_cons, firstBreach_cons] at h
    have clear : (∀ h ∈ others', touches g h = false) ↔ ¬ others.any (fun h => touches g h) = true := by
      simp [same]
    rw [firstOverlap]
    rcases h with ⟨fails, rfl⟩ | ⟨holds, later⟩
    · exact if_pos (not_not.mp (mt clear.mpr fails))
    · rw [if_neg (clear.mp holds)]
      refine ih (fun k => ?_) later
      simp [same, or_comm]

theorem mem_boundMasters {s : State} {consumers : BitVec 8} {m : Fin 16} : m ∈ boundMasters s consumers ↔
    ∃ (c : Fin 8) (b : Binding), consumers.getLsbD c.val = true ∧ s.consumers[c] = some b ∧ b.master = m := by
  simp only [boundMasters, List.mem_filterMap]
  constructor
  · rintro ⟨c, -, bound⟩
    split at bound
    · next member =>
      obtain ⟨b, binding, same⟩ := Option.map_eq_some_iff.mp bound
      exact ⟨c, b, member, binding, same⟩
    · cases bound
  · rintro ⟨c, b, member, binding, same⟩
    exact ⟨c, mem_consumerNumbers c, by rw [if_pos member, binding, Option.map_some, same]⟩

theorem bound_producer_iff {s : State} {d : Definition} :
    (boundMasters s d.consumers).any (fun (m : Fin 16) => d.producers.getLsbD m.val) = true ↔
      ¬ ∀ (c : Fin 8) b, d.consumers.getLsbD c.val = true → s.consumers[c] = some b →
        d.producers.getLsbD b.master.val = false := by
  simp only [List.any_eq_true, mem_boundMasters, not_forall]
  constructor
  · rintro ⟨_, ⟨c, b, member, binding, rfl⟩, producer⟩
    exact ⟨c, b, member, binding, by rw [producer]; decide⟩
  · rintro ⟨c, b, member, binding, producer⟩
    exact ⟨b.master, ⟨c, b, member, binding, rfl⟩, Bool.eq_true_of_not_eq_false producer⟩

/-- The check of R29 that a rolling window has 64 lines at most. -/
def Definition.linesFit (d : Definition) : Prop :=
  match d.geometry with
  | .slotted _ _ _ => True
  | .rolling top visible staging bottom _ => top + visible + staging + bottom ≤ 64

theorem relationalCheck_eq (w : Fin 16) (d : Definition) (s : State) : ∀ tooLong : Bool, (tooLong = true ↔ ¬ d.linesFit) →
    relationalCheck w d s = if tooLong = true then some 15 else
      if (boundMasters s d.consumers).any (fun (m : Fin 16) => d.producers.getLsbD m.val) = true then some 5 else
      firstOverlap (s.windowRegions (some w) ++ s.ringRegions) d.regions := by
  intro tooLong is
  rw [relationalCheck]
  refine if_congr ?_ rfl rfl
  rw [is, Definition.linesFit]
  cases d.geometry with
  | slotted => simp
  | rolling => simp

theorem relationalCheck_of_breach {w : Fin 16} {d : Definition} {s : State} {i : Nat}
    (h : FirstBreach (relationalChecks w d s) i) : relationalCheck w d s = some i := by
  classical
  rw [relationalCheck_eq w d s (decide (¬ d.linesFit)) decide_eq_true_iff]
  have h : FirstBreach ((d.linesFit, 15) :: (_, 5) :: overlapChecks _ _) i := h
  rw [firstBreach_cons, firstBreach_cons] at h
  rcases h with ⟨long, rfl⟩ | ⟨fits, ⟨bound, rfl⟩ | ⟨free, overlap⟩⟩
  · exact if_pos (decide_eq_true long)
  · rw [if_neg (by simpa using fits)]
    exact if_pos (bound_producer_iff.mpr bound)
  · rw [if_neg (by simpa using fits), if_neg (mt bound_producer_iff.mp (not_not.mpr free))]
    exact firstOverlap_of_breach (fun _ => Iff.rfl) overlap

theorem relationalCheck_of_fits {w : Fin 16} {d : Definition} {s : State} (h : d.fits w s) :
    relationalCheck w d s = none := by
  classical
  obtain ⟨lines, free, pairs, apart⟩ := h
  rw [relationalCheck_eq w d s (decide (¬ d.linesFit)) decide_eq_true_iff]
  have lines : d.linesFit := lines
  rw [if_neg (by simpa using lines), if_neg (mt bound_producer_iff.mp (not_not.mpr free))]
  exact firstOverlap_eq_none.mpr ⟨pairs, apart⟩

/-! ### The checks of ENABLE WINDOW (R34) -/

theorem allBound_iff {s : State} {consumers : BitVec 8} : allBound s consumers = true ↔
    ∀ c : Fin 8, consumers.getLsbD c.val = true → s.consumers[c].isSome = true := by
  simp only [allBound, List.all_eq_true, Bool.or_eq_true, Bool.not_eq_true']
  refine ⟨fun h c member => (h c (mem_consumerNumbers c)).resolve_left (by rw [member]; decide), fun h c _ => ?_⟩
  cases member : consumers.getLsbD c.val with
  | false => exact .inl rfl
  | true => exact .inr (h c member)

/-- The check of R34 on the initial front. -/
def Definition.hasSlot (d : Definition) (front : Nat) : Prop :=
  match d.geometry with
  | .slotted _ _ bases => front < bases.length
  | .rolling _ _ _ _ _ => True

theorem enableCheck_eq {w : Fin 16} {d : Definition} (wf : d.wf) (front : Nat) (s : State) : ∀ frontOk : Bool,
    (frontOk = true ↔ d.hasSlot front) → enableCheck w d front s = if frontOk = false then some 2 else
      if allBound s d.consumers = false then some 6 else
      if d.trigger = .commitWord ∧ d.word = none then some 8 else relationalCheck w d s := by
  intro frontOk is
  have carries : Carries (definitionFrame w d) w d := Definition.carried wf (Definition.givenBy_definitionBytes d)
  rw [enableCheck, fieldChecks_pass carries wf]
  refine if_congr ?_ rfl rfl
  rw [← Bool.not_eq_true, ← Bool.not_eq_true, is, Definition.hasSlot]
  cases d.geometry with
  | slotted => simp
  | rolling => simp

theorem enableCheck_of_breach {w : Fin 16} {d : Definition} {front i : Nat} {s : State} (wf : d.wf)
    (h : FirstBreach (enableChecks w d front s) i) : enableCheck w d front s = some i := by
  classical
  rw [enableCheck_eq wf front s (decide (d.hasSlot front)) decide_eq_true_iff]
  have h : FirstBreach ((d.hasSlot front, 2) :: (_, 6) :: (_, 8) :: relationalChecks w d s) i := h
  rw [firstBreach_cons, firstBreach_cons, firstBreach_cons] at h
  rcases h with ⟨absent, rfl⟩ | ⟨hasFront, ⟨unbound, rfl⟩ | ⟨bound, ⟨wordless, rfl⟩ | ⟨worded, relational⟩⟩⟩
  · exact if_pos (decide_eq_false absent)
  · rw [if_neg (by simpa using hasFront)]
    exact if_pos (Bool.eq_false_of_not_eq_true (mt allBound_iff.mp unbound))
  · rw [if_neg (by simpa using hasFront), if_neg (by simpa using allBound_iff.mpr bound)]
    exact if_pos (by simpa using wordless)
  · rw [if_neg (by simpa using hasFront), if_neg (by simpa using allBound_iff.mpr bound),
      if_neg (fun both => worded both.1 both.2)]
    exact relationalCheck_of_breach relational

theorem enableCheck_pass {w : Fin 16} {d : Definition} {front : Nat} {s : State} (wf : d.wf) (fits : d.fits w s)
    (hasFront : d.hasSlot front)
    (bound : ∀ c : Fin 8, d.consumers.getLsbD c.val = true → s.consumers[c].isSome = true)
    (worded : d.trigger = .commitWord → d.word ≠ none) : enableCheck w d front s = none := by
  classical
  rw [enableCheck_eq wf front s (decide (d.hasSlot front)) decide_eq_true_iff, if_neg (by simpa using hasFront),
    if_neg (by simpa using allBound_iff.mpr bound), if_neg (fun both => worded both.1 both.2),
    relationalCheck_of_fits fits]

/-! ### The checks of SET NOTICE RING (R137) -/

theorem ringFieldChecks_agree (frame : List Byte) : List.Forall₂ Agrees (ringFieldChecks frame) (ringChecks frame) := by
  refine .cons ⟨List.contains_iff_mem, rfl⟩ (.cons ⟨regionFits_iff, rfl⟩ (.cons ⟨decide_eq_true_iff, rfl⟩
    (.cons ⟨decide_eq_true_iff, rfl⟩ (.cons ⟨within_iff.trans ?_, rfl⟩
      (.cons ⟨within_iff.trans (and_iff_right (Nat.zero_le _)), rfl⟩ .nil)))))
  simp only [ringOf]
  split <;> omega

theorem firstBreach_append {a b : List (Prop × Nat)} {i : Nat} (h : FirstBreach (a ++ b) i) :
    FirstBreach a i ∨ ((∀ c ∈ a, c.1) ∧ FirstBreach b i) := by
  induction a with
  | nil => exact .inr ⟨nofun, h⟩
  | cons c a ih =>
    obtain ⟨p, j⟩ := c
    rcases firstBreach_cons.mp h with fails | ⟨holds, later⟩
    · exact .inl (firstBreach_cons.mpr (.inl fails))
    · rcases ih later with inner | ⟨pass, outer⟩
      · exact .inl (firstBreach_cons.mpr (.inr ⟨holds, inner⟩))
      · exact .inr ⟨List.forall_mem_cons.mpr ⟨holds, pass⟩, outer⟩

theorem firstOverlap_of_clear {regions : List (Nat × Region)} : ∀ {others others' : List Region},
    (∀ g, g ∈ others ↔ g ∈ others') → (∀ c ∈ overlapChecks others' regions, c.1) →
      firstOverlap others regions = none := by
  induction regions with
  | nil => exact fun _ _ => rfl
  | cons x rest ih =>
    intro others others' same h
    obtain ⟨j, g⟩ := x
    rw [overlapChecks_cons, List.forall_mem_cons] at h
    rw [firstOverlap, if_neg (by simpa [same] using h.1)]
    refine ih (fun k => ?_) h.2
    simp [same, or_comm]

theorem find_of_breach {regions : List (Nat × Region)} {others : List Region} {i : Nat}
    (h : FirstBreach (regions.map (fun x => (∀ g ∈ others, touches x.2 g = false, x.1))) i) :
    (regions.find? (fun p => others.any (fun g => touches p.2 g))).map Prod.fst = some i := by
  induction regions with
  | nil => exact (not_firstBreach_nil h).elim
  | cons x rest ih =>
    rw [List.map_cons, firstBreach_cons] at h
    rcases h with ⟨fails, rfl⟩ | ⟨holds, later⟩
    · rw [List.find?_cons_of_pos (by simpa using fails)]
      rfl
    · rw [List.find?_cons_of_neg (by simpa using holds)]
      exact ih later

theorem ringOverlap_of_breach {d : RingDef} {s : State} {i : Nat} (h : FirstBreach (overlapChecks [] d.regions ++
    d.regions.map (fun x => (∀ g ∈ s.windowRegions none, touches x.2 g = false, x.1))) i) :
    ringOverlap d s = some i := by
  rw [ringOverlap]
  rcases firstBreach_append h with own | ⟨clear, other⟩
  · rw [firstOverlap_of_breach (fun _ => Iff.rfl) own]
  · rw [firstOverlap_of_clear (fun _ => Iff.rfl) clear]
    exact find_of_breach other

/-! ### The checks of BIND CONSUMER (R107) -/

theorem sourceOf_eq_none {n : Nat} (h : ¬ (n = 1 ∨ n = 2)) : sourceOf n = none := by
  unfold sourceOf
  split
  · exact absurd (.inl rfl) h
  · exact absurd (.inr rfl) h
  · rfl

/-- BIND CONSUMER for a consumer not in use names the first of its checks that fails. -/
theorem ownerBindConsumer_of_breach {k : Fin 8} {master source lo hi : Byte} {s : State} {i : Nat}
    (free : ¬ consumerInUse s k = true) (h : FirstBreach (bindChecks k master.toNat source.toNat s) i) :
    ownerBindConsumer [codeBindConsumer, byteOf k, master, source, lo, hi] s = refuseParam i := by
  have third : field [codeBindConsumer, byteOf k, master, source, lo, hi] 3 1 = source.toNat := rfl
  simp only [ownerBindConsumer, field_one, field_two, third, number_byteOf (show 8 ≤ 256 by decide), free]
  rw [bindChecks, firstBreach_cons, firstBreach_cons, firstBreach_cons, firstBreach_cons] at h
  rcases h with ⟨high, rfl⟩ | ⟨low, rest⟩
  · rw [number_ge (Nat.le_of_not_lt high)]
    rfl
  simp only [number_lt low]
  rcases rest with ⟨bound, rfl⟩ | ⟨single, ⟨produces, rfl⟩ | ⟨apart, ⟨unknown, rfl⟩ | ⟨-, none⟩⟩⟩
  · simp only [not_forall] at bound
    obtain ⟨c', b, other, binding, same⟩ := bound
    exact if_pos (Or.inl (boundElsewhere_iff.mpr ⟨c', b, other, binding, Fin.ext (not_not.mp same)⟩))
  · simp only [not_forall] at produces
    obtain ⟨w, d, defined, definition, producer, consumer⟩ := produces
    exact if_pos (Or.inr (producesFor_iff.mpr ⟨w, d, defined, definition, producer, Bool.eq_true_of_not_eq_false consumer⟩))
  · have clear : ¬ (boundElsewhere s k ⟨master.toNat, low⟩ = true ∨ producesFor s k ⟨master.toNat, low⟩ = true) := by
      rintro (bound | produces)
      · obtain ⟨c', b, other, binding, same⟩ := boundElsewhere_iff.mp bound
        exact single c' b other binding (congrArg Fin.val same)
      · obtain ⟨w, d, defined, definition, producer, consumer⟩ := producesFor_iff.mp produces
        rw [apart w d defined definition producer] at consumer
        cases consumer
    simp only [clear, sourceOf_eq_none unknown]
    rfl
  · exact (not_firstBreach_nil none).elim

/-! ### Refusals (R153 to R155) -/

theorem takeWrite_badFrame {code : Byte} {ok : Bool} {owner : State → Answer} {s : State}
    (awake : s.link.awaitRise = false) (bad : ok = false) :
    takeWrite code ok owner s = { s with link := s.link.recorded code .refusedFrame 0 } :=
  takeWrite_error awake (if_pos bad)

theorem takeWrite_busy {code : Byte} {ok : Bool} {owner : State → Answer} {s : State}
    (awake : s.link.awaitRise = false) (good : ok = true) (resetting : s.link.part = .resetting) :
    takeWrite code ok owner s = { s with link := s.link.recorded code .refusedBusy 0 } :=
  takeWrite_error awake ((if_neg (by rw [good]; decide)).trans (if_pos resetting))

theorem takeWrite_refused {code : Byte} {ok : Bool} {owner : State → Answer} {s : State} {result : Result} {i : Nat}
    (awake : s.link.awaitRise = false) (running : s.link.part = .running) (good : ok = true)
    (answer : owner s = .error (result, i)) :
    takeWrite code ok owner s = { s with link := s.link.recorded code result i } :=
  takeWrite_error awake ((if_neg (by rw [good]; decide)).trans ((if_neg (by rw [running]; decide)).trans answer))

/-- A command of fixed length is taken by its owner. -/
theorem fixedLength_exec {params : List Byte} {x : Instr × Byte × Nat} (h : x ∈ fixedLengthCommands params) :
    ∃ owner : State → Answer, ∀ s, exec x.1 s = .next (takeWrite x.2.1 (hasLength x.2.2 (x.2.1 :: params)) owner s) := by
  simp only [fixedLengthCommands, List.mem_cons, List.not_mem_nil, or_false] at h
  rcases h with rfl | rfl | rfl | rfl | rfl | rfl | rfl | rfl | rfl | rfl | rfl | rfl | rfl | rfl <;>
    exact ⟨_, fun _ => rfl⟩

theorem fixedLength_unique {params : List Byte} {x y : Instr × Byte × Nat} (hx : x ∈ fixedLengthCommands params)
    (hy : y ∈ fixedLengthCommands params) (code : x.2.1 = y.2.1) : x = y := by
  have nodup : ((fixedLengthCommands params).map (fun x => x.2.1)).Nodup :=
    (by decide : [(0x02 : Byte), 3, 4, 5, 6, 7, 8, 9, 0x0A, 0x0B, 0x0C, 0x0D, 0x0E, 0x0F].Nodup)
  exact List.inj_on_of_nodup_map nodup hx hy code

/-- A command that names a window is taken by an owner that looks at the window's number first. -/
theorem windowCommand_exec {params : List Byte} {x : Instr × Byte × Nat} (h : x ∈ fixedLengthCommands params)
    (code : x.2.1 ∈ [(0x02 : Byte), 0x03, 0x04, 0x05, 0x06, 0x07, 0x08, 0x09]) :
    ∃ f : State → Fin 16 → Answer, ∀ s, exec x.1 s = .next (takeWrite x.2.1 (hasLength x.2.2 (x.2.1 :: params))
      (fun s => withWindow (x.2.1 :: params) (f s)) s) := by
  simp only [fixedLengthCommands, List.mem_cons, List.not_mem_nil, or_false] at h
  rcases h with rfl | rfl | rfl | rfl | rfl | rfl | rfl | rfl | rfl | rfl | rfl | rfl | rfl | rfl
  iterate 8 exact ⟨_, fun _ => rfl⟩
  all_goals exact absurd code (by simp)

/-- What a command on an existing window answers is refused with its owner's reason. -/
theorem windowCommand_refused {params rest : List Byte} {x : Instr × Byte × Nat} {w : Fin 16} {s : State}
    {f : State → Fin 16 → Answer} {result : Result} {i : Nat} (awake : s.link.awaitRise = false)
    (running : s.link.part = .running) (length : params.length + 1 = x.2.2) (split : params = byteOf w :: rest)
    (taken : ∀ s, exec x.1 s = .next (takeWrite x.2.1 (hasLength x.2.2 (x.2.1 :: params))
      (fun s => withWindow (x.2.1 :: params) (f s)) s)) (answer : f s w = .error (result, i)) :
    exec x.1 s = .next { s with link := s.link.recorded x.2.1 result i } := by
  rw [taken]
  refine congrArg _ (takeWrite_refused awake running (decide_eq_true length) ?_)
  rw [split, withWindow_byteOf, answer]

theorem field_of_getElem {params : List Byte} {k : Nat} {b code : Byte} (h : params[k]? = some b) :
    field (code :: params) (k + 1) 1 = b.toNat := by
  obtain ⟨inside, rfl⟩ := List.getElem?_eq_some_iff.mp h
  rw [field, List.drop_succ_cons, List.drop_eq_getElem_cons inside]
  rfl

theorem defineLengthOk_bad {params : List Byte} (h : params.length < 2 ∨ (params[1]? = some 2 ∧ params.length ≠ 31) ∨
    (params[1]? = some 1 ∧ params.length < 24) ∨ ∃ n, params[1]? = some 1 ∧ params[23]? = some (BitVec.ofNat 8 n) ∧
      2 ≤ n ∧ n ≤ 4 ∧ params.length ≠ 25 + 5 * n) : defineLengthOk (0x01 :: params) = false := by
  unfold defineLengthOk
  extract_lets n slots
  have count : n = params.length + 1 := rfl
  rcases h with short | ⟨kind, long⟩ | ⟨kind, short⟩ | ⟨k, kind, counted, low, high, long⟩
  · exact if_pos (by omega)
  · have kindField : field (0x01 :: params) 2 1 = 2 := field_of_getElem kind
    rw [if_pos kindField]
    split
    · rfl
    · exact decide_eq_false (by omega)
  · have kindField : field (0x01 :: params) 2 1 = 1 := field_of_getElem kind
    rw [if_neg (by omega : ¬ field (0x01 :: params) 2 1 = 2), if_neg (not_not.mpr kindField), if_pos (by omega : n < 25)]
    exact ite_self _
  · have kindField : field (0x01 :: params) 2 1 = 1 := field_of_getElem kind
    have slotField : slots = k := (field_of_getElem counted).trans (toNat_ofNat8 (by omega))
    have inside := (List.getElem?_eq_some_iff.mp counted).1
    rw [if_neg (by omega : ¬ n < 3), if_neg (by omega : ¬ field (0x01 :: params) 2 1 = 2),
      if_neg (not_not.mpr kindField), if_neg (by omega : ¬ n < 25), slotField, if_pos ⟨low, high⟩]
    exact decide_eq_false (by omega)

end Sys2Proof.Machine

namespace Sys2Proof
open Machine

/-- Settles O47: the frame carries the definition, which passes the checks and is stored and read back. -/
theorem defineWindowStoresDefinition : Obligations.DefineWindowStoresDefinition := by
  intro w d bytes s ready state wf fits given t
  have carries := Definition.carried (w := w) wf given
  have idle : ¬ s.windows[w].state.working = true := by
    rcases state with h | h <;> rw [h] <;> decide
  refine ⟨?_, (exec_readWindowDefinition (s := t) ready.2 []).trans ?_⟩
  · have taken := takeWrite_ok (code := 0x01) (owner := ownerDefineWindow (0x01 :: byteOf w :: bytes))
      (t := s.updWindow w (fun x => { x with state := .defined, definition := some d })) ready ?_ rfl
    · rw [← defineLengthOk_carried carries wf] at taken
      exact congrArg _ taken
    · rw [ownerDefineWindow, withWindow_byteOf, if_neg idle]
      simp only [fieldChecks_pass carries wf, carries.definitionOf wf, relationalCheck_of_fits fits]
  · have defined : t.windows[w].state = .defined := congrArg Window.state (Vector.getElem_set_self ..)
    have stored : t.definition w = some d := congrArg Window.definition (Vector.getElem_set_self ..)
    have record : definitionRecord t w = 1 :: definitionBytes d ++ List.replicate (44 - (definitionBytes d).length) 0 := by
      rw [definitionRecord, if_neg (by rw [defined]; decide), stored]
      simp only [fillTo, List.length_cons]
      rw [Nat.add_comm, ← Nat.sub_sub]
    rw [record]

/-- Settles O53: each refusal by its check, the first one that fails naming the index. -/
theorem refusedCommandsChangeOnlyResult : Obligations.RefusedCommandsChangeOnlyResult := by
  intro params s awake refused
  refine ⟨fun x member length => ?_, fun x member length resetting => ?_, fun code unknown => ?_, fun bad => ?_,
    fun b rest split running high x member length code => ?_, fun w rest split running => ⟨fun x member length state => ?_,
      fun good working => ?_⟩, fun good => ⟨fun resetting => ?_, fun running => ⟨fun b rest split high => ?_,
        fun w rest i split idle breach => ?_⟩⟩, fun running => ?_⟩
  · obtain ⟨owner, taken⟩ := fixedLength_exec member
    rw [taken]
    exact congrArg _ (takeWrite_badFrame awake (decide_eq_false length))
  · obtain ⟨owner, taken⟩ := fixedLength_exec member
    rw [taken]
    exact congrArg _ (takeWrite_busy awake (decide_eq_true length) resetting)
  · refine congrArg _ ((if_neg (by rw [unknown]; decide)).trans ?_)
    exact takeWrite_badFrame awake rfl
  · exact congrArg _ (takeWrite_badFrame awake (defineLengthOk_bad bad))
  · obtain ⟨f, taken⟩ := windowCommand_exec member code
    rw [taken]
    refine congrArg _ (takeWrite_refused awake running (decide_eq_true length) ?_)
    rw [split, withWindow, field_one, number_ge high]
    rfl
  · rcases state with ⟨code, other⟩ | ⟨code, notLive, notHalted⟩ | ⟨code, other⟩ | ⟨code, other⟩ | ⟨code, other⟩
    · simp only [List.mem_cons, List.not_mem_nil, or_false] at code
      rcases code with code | code | code
      · obtain rfl := fixedLength_unique member (y := (.setCommitWord params, 0x02, 7)) (by simp [fixedLengthCommands]) code
        refine windowCommand_refused awake running length split (fun _ => rfl) ?_
        split
        · next defined _ => exact absurd defined other
        · rfl
      · obtain rfl := fixedLength_unique member (y := (.undefineWindow params, 0x03, 2)) (by simp [fixedLengthCommands]) code
        exact windowCommand_refused awake running length split (fun _ => rfl) (if_neg other)
      · obtain rfl := fixedLength_unique member (y := (.enableWindow params, 0x04, 3)) (by simp [fixedLengthCommands]) code
        refine windowCommand_refused awake running length split (fun _ => rfl) ?_
        split
        · next defined _ => exact absurd defined other
        · rfl
    · obtain rfl := fixedLength_unique member (y := (.drainWindow params, 0x05, 2)) (by simp [fixedLengthCommands]) code
      exact windowCommand_refused awake running length split (fun _ => rfl) (if_neg (not_or.mpr ⟨notLive, notHalted⟩))
    · obtain rfl := fixedLength_unique member (y := (.resumeWindow params, 0x06, 2)) (by simp [fixedLengthCommands]) code
      exact windowCommand_refused awake running length split (fun _ => rfl) (if_neg other)
    · obtain rfl := fixedLength_unique member (y := (.setStallLimit params, 0x07, 4)) (by simp [fixedLengthCommands]) code
      refine windowCommand_refused awake running length split (fun _ => rfl) (if_neg ?_)
      rcases other with state | state <;> rw [state] <;> decide
    · simp only [List.mem_cons, List.not_mem_nil, or_false] at code
      rcases code with code | code
      · obtain rfl := fixedLength_unique member (y := (.publish params, 0x08, 4)) (by simp [fixedLengthCommands]) code
        exact windowCommand_refused awake running length split (fun _ => rfl) (if_neg other)
      · obtain rfl := fixedLength_unique member (y := (.abandon params, 0x09, 2)) (by simp [fixedLengthCommands]) code
        exact windowCommand_refused awake running length split (fun _ => rfl) (if_pos other)
  · subst split
    refine congrArg _ (takeWrite_refused awake running good ?_)
    rw [frameOf, ownerDefineWindow, withWindow_byteOf, if_pos working]
    rfl
  · exact congrArg _ (takeWrite_busy awake good resetting)
  · refine congrArg _ (takeWrite_refused awake running good ?_)
    rw [split, frameOf, ownerDefineWindow, withWindow, field_one, number_ge high]
    rfl
  · refine congrArg _ (takeWrite_refused awake running good ?_)
    subst split
    have fails : firstFailing (fieldChecks (codeDefineWindow :: byteOf w :: rest)) = some i :=
      firstFailing_of_breach (fieldChecks_agree _) breach
    rw [frameOf, ownerDefineWindow, withWindow_byteOf, if_neg (by rw [idle]; decide)]
    simp only [fails]
    rfl
  · refine ⟨fun w d i idle wf breach => ?_, fun w front d i defined definition wf breach => ?_,
      fun w d a defined definition given bad => ?_, fun w state => ?_, fun w d live definition rolling => ?_,
      fun c m source lo hi => ⟨fun high => ⟨?_, ?_⟩, fun k which => ?_⟩,
      fun i length given breach => ?_, fun d i wf breach => ?_, fun inactive => ?_⟩
    · have carries : Carries (codeDefineWindow :: byteOf w :: definitionBytes d) w d :=
        Definition.carried wf (Definition.givenBy_definitionBytes d)
      refine congrArg _ (takeWrite_refused awake running (defineLengthOk_carried carries wf) ?_)
      rw [frameOf, ownerDefineWindow, withWindow_byteOf, if_neg (by rw [idle]; decide)]
      simp only [fieldChecks_pass carries wf, carries.definitionOf wf, relationalCheck_of_breach breach]
      rfl
    · refine congrArg _ (takeWrite_refused awake running rfl ?_)
      rw [frameOf, ownerEnableWindow, withWindow_byteOf, defined, definition]
      simp only [field_two, enableCheck_of_breach wf breach]
      rfl
    · have word : wordField (codeSetCommitWord :: byteOf w :: leBytes 5 a.toNat) 2 = some a :=
        wordField_leBytes (before := [codeSetCommitWord, byteOf w]) (after := []) 2 rfl given
      refine congrArg _ (takeWrite_refused awake running rfl ?_)
      rw [frameOf, ownerSetCommitWord, withWindow_byteOf, defined, definition]
      simp only [word]
      exact if_pos (bad.imp_right wordOverlaps_iff.mpr)
    · refine congrArg _ (takeWrite_refused awake running rfl ?_)
      rw [frameOf, ownerSetStallLimit, withWindow_byteOf]
      exact (if_pos state).trans (if_pos rfl)
    · refine congrArg _ (takeWrite_refused awake running rfl ?_)
      rw [frameOf, ownerAbandon, withWindow_byteOf, if_neg (not_not.mpr live), definition]
      exact if_neg (by rw [Option.any_some, rolling]; decide)
    · refine congrArg _ (takeWrite_refused awake running rfl ?_)
      rw [frameOf, ownerBindConsumer, field_one, number_ge high]
      rfl
    · refine congrArg _ (takeWrite_refused awake running rfl ?_)
      rw [frameOf, ownerUnbindConsumer, field_one, number_ge high]
      rfl
    · intro inUse
      subst which
      refine ⟨fun used => ?_, fun i unused breach => ?_⟩
      · have busy : consumerInUse s k = true := consumerInUse_iff.mpr used
        refine ⟨congrArg _ (takeWrite_refused awake running rfl ?_), congrArg _ (takeWrite_refused awake running rfl ?_)⟩
        · rw [frameOf, ownerBindConsumer, field_one, number_byteOf (by decide)]
          exact if_pos busy
        · rw [frameOf, ownerUnbindConsumer, field_one, number_byteOf (by decide)]
          exact if_pos busy
      · exact congrArg _ (takeWrite_refused awake running rfl
          (ownerBindConsumer_of_breach (mt consumerInUse_iff.mp unused) breach))
    · have fails : firstFailing (ringFieldChecks (codeSetNoticeRing :: params)) = some i :=
        firstFailing_of_breach (ringFieldChecks_agree _) breach
      refine congrArg _ (takeWrite_refused awake running (decide_eq_true (by rw [frameOf, List.length_cons, length])) ?_)
      rw [frameOf, ownerSetNoticeRing]
      refine (if_neg given).trans ?_
      simp only [fails]
      rfl
    · have given := RingDef.givenBy_ringBytes wf
      obtain ⟨entries, -, -, -, -, -, same⟩ := RingDef.givenBy_fields wf given
      have nonzero : d.entries ≠ 0 := Nat.ne_of_gt (ringSizes_bounds _ wf.1).1
      refine congrArg _ (takeWrite_refused awake running
        (decide_eq_true (by rw [frameOf, List.length_cons, RingDef.givenBy_length given])) ?_)
      have answer : ownerSetNoticeRing (0x0C :: ringBytes d) s = refuseParam i := by
        simp only [ownerSetNoticeRing, entries, nonzero, if_false, ringFieldChecks_pass wf given, same,
          ringOverlap_of_breach breach]
      exact answer
    · exact congrArg _ (takeWrite_refused awake running rfl (if_neg inactive))

end Sys2Proof
end


section
/-! SUPPORT. ENABLE WINDOW (R34, R45, R46, R71, R74, R76): the fresh records of a window, the allocation of its first
FILLING slot and the copier's first choice. -/

namespace Sys2Proof.Machine

/-! ### The copier's choice (R76) -/

theorem kickCopier_busy {s : State} (busy : s.copier.copy.isSome = true) : kickCopier s = s := by
  obtain ⟨y, copy⟩ := Option.isSome_iff_exists.mp busy
  unfold kickCopier
  rw [copy]
  exact ite_self _

theorem after_pointer (w p : Fin 16) : p + 1 + (w - p - 1) = w := by decide +revert

theorem startCopy_eq {w : Fin 16} {i f : Fin 4} {b : Nat} {s : State} (source : (s.work w i).bind Work.source = some f) :
    startCopy w i b s = (setBlock w i b .copying s).updCopier (fun c => { c with
      copy := some { window := w, source := f, dest := i, block := b, attempt := .first, failed := false,
                     dropped := false, next := 0, written := 0 } }) := by
  simp only [startCopy, source]

theorem isCandidate_congr {s t : State} {w : Fin 16} (jobs : t.copier.jobs[w] = s.copier.jobs[w])
    (slots : t.slots[w] = s.slots[w]) : isCandidate t w = isCandidate s w := by
  simp only [isCandidate, State.work, State.slot, jobs, slots]

theorem replicate_needsCopy {n : Nat} {source : Option (Fin 4)} :
    (1 ≤ n → Work.has { map := List.replicate n .needsCopy, written := 0, source := source } BlockState.isNeedsCopy = true) ∧
    (1 ≤ n → Work.nextBlock { map := List.replicate n .needsCopy, written := 0, source := source } = 0) := by
  cases n with
  | zero => exact ⟨nofun, nofun⟩
  | succ n => exact ⟨fun _ => rfl, fun _ => rfl⟩

/-- An idle copier without urgent blocks chooses the one rotation candidate. -/
theorem kickCopier_only {s : State} {w : Fin 16} {i : Fin 4} {k : Work} (running : s.link.part = .running)
    (idle : s.copier.copy = none) (calm : s.copier.urgent = []) (only : ∀ w', w' ≠ w → isCandidate s w' = false)
    (job : s.copier.jobs[w] = some i) (work : s.work w i = some k) (needs : k.has BlockState.isNeedsCopy = true) :
    kickCopier s = startCopy w i k.nextBlock (s.updCopier (fun c => { c with pointer := w })) := by
  have candidate : isCandidate s w = true := by
    rw [isCandidate, job]
    simp only [work]
    exact needs
  have chosen : (rotationOrder s.copier.pointer).find? (isCandidate s) = some w := by
    have listed : w ∈ rotationOrder s.copier.pointer :=
      List.mem_map.mpr ⟨w - s.copier.pointer - 1, mem_windowNumbers _, after_pointer w s.copier.pointer⟩
    cases found : (rotationOrder s.copier.pointer).find? (isCandidate s) with
    | none => exact absurd candidate (List.find?_eq_none.mp found w listed)
    | some v =>
      have picked := List.find?_some found
      by_cases same : v = w
      · rw [same]
      · rw [only v same] at picked
        cases picked
  simp only [kickCopier, running, idle, calm, chosen, job, work, ne_eq, not_true_eq_false, if_false]

/-! ### Allocation of a slot (R46, R47, R71) -/

/-- Slot `i` of window `w` opened with a fresh block map. -/
def State.opened (s : State) (w : Fin 16) (d : Definition) (front i : Fin 4) : State :=
  s.onSlots w (fun u => { u.onSlot i (fun x => { x with state := .filling (newWork d front) }) with filling := some i })

theorem allocateSlot_plain {w : Fin 16} {d : Definition} {u : SlotUnit} {i : Fin 4} {s : State}
    (plain : d.isBackfill = false) :
    allocateSlot w d u i s = mapSlotWaits w i (s.opened w d u.front i) := by
  simp only [allocateSlot, plain, Bool.false_eq_true, if_false]
  exact congrArg _ (State.onSlots_onSlots ..)

theorem allocateSlot_backfill {w : Fin 16} {d : Definition} {u : SlotUnit} {i : Fin 4} {s : State}
    (backfill : d.isBackfill = true) :
    allocateSlot w d u i s = mapSlotWaits w i
      (createJob w i ((s.opened w d u.front i).updSlot w u.front (fun x => { x with hold := true }))) := by
  simp only [allocateSlot, backfill, if_true]
  exact congrArg (fun t => mapSlotWaits w i (createJob w i (State.updSlot t w u.front _))) (State.onSlots_onSlots ..)

/-! ### Fresh records (R34, R45) -/

/-- A window made LIVE, without its slot or roll state. -/
def State.enabled (s : State) (w : Fin 16) (d : Definition) : State :=
  { s with
    windows := s.windows.set w { state := .live, definition := some d, inFlight := 0, waiting := 0, haltCause := none }
    commits := s.commits.set w { queue := [], current := none, fence := false }
    views := s.views.set w (Vector.ofFn (fun c => if d.consumers.getLsbD c.val = true
      then some { state := .unpinned, frames := 0, mark := none, timer := none } else none)) }

/-- A window with these slot records. -/
def State.withSlots (s : State) (w : Fin 16) (u : SlotUnit) : State := { s with slots := s.slots.set w (some u) }

theorem enableWindow_slotted {w : Fin 16} {d : Definition} {f : Fin 4} {s : State} (definition : s.definition w = some d)
    {blocks : Nat} {coverage : Coverage} {bases : List Addr} (shape : d.geometry = .slotted blocks coverage bases) :
    enableWindow w d f s =
      allocate w ((s.enabled w d).withSlots w (freshSlots bases.length f)) := by
  have stored : s.windows[w].definition = some d := definition
  simp only [enableWindow, shape, State.updWindow, upd, stored]
  rfl

theorem enableWindow_rolling {w : Fin 16} {d : Definition} {f : Fin 4} {s : State} (definition : s.definition w = some d)
    {top visible staging bottom : Nat} {base : Addr} (shape : d.geometry = .rolling top visible staging bottom base) :
    enableWindow w d f s = { s.enabled w d with rolls := s.rolls.set w (some
      { origin := 0, serial := 0, seeing := 0, reads := List.replicate (visible + staging) 0 }) } := by
  have stored : s.windows[w].definition = some d := definition
  have ring : d.ring = visible + staging := by rw [Definition.ring, shape]
  simp only [enableWindow, shape, State.updWindow, upd, stored, freshRoll, ring]
  rfl

/-- The lowest-numbered slot that is not the initial front. -/
def firstOther (f : Fin 4) : Fin 4 := if f = 0 then 1 else 0

theorem firstOther_ne (f : Fin 4) : firstOther f ≠ f := by decide +revert

theorem firstOther_lt (f : Fin 4) : (firstOther f).val < 2 := by decide +revert

theorem eq_of_lt_firstOther {f j : Fin 4} (below : j < firstOther f) : j = f := by decide +revert

theorem freshSlots_get {n : Nat} {f j : Fin 4} : (freshSlots n f).slots[j] = if j.val < n then some
    { state := if j = f then .published 0 else .free, pins := 0, inFlight := 0, waiting := 0, hold := false } else none := by
  simp only [freshSlots, Fin.getElem_fin, Vector.getElem_ofFn]

theorem freshSlots_lowestFree {n : Nat} (f : Fin 4) (two : 2 ≤ n) : (freshSlots n f).lowestFree = some (firstOther f) := by
  have low := firstOther_lt f
  refine SlotUnit.lowestFree_eq_some (freshSlots_get.trans (if_pos (by omega))) (if_neg (firstOther_ne f)) ?_
  intro j below y slot
  rw [freshSlots_get] at slot
  split at slot
  · cases slot
    rw [if_pos (eq_of_lt_firstOther below)]
    nofun
  · cases slot

/-- The slots of a newly enabled window: the initial front, held where it is a source, and the FILLING slot. -/
def enabledSlots (n : Nat) (f : Fin 4) (work : Work) (hold : Bool) : SlotUnit :=
  { slots := Vector.ofFn (fun j => if n ≤ j.val then none else some
      { state := if j = f then .published 0 else if j = firstOther f then .filling work else .free
        pins := 0, inFlight := 0, waiting := 0, hold := decide (j = f) && hold })
    counter := 0, front := f, filling := some (firstOther f), sealed := none }

theorem SlotUnit.onSlot_get (u : SlotUnit) (i j : Fin 4) (f : Slot → Slot) :
    (u.onSlot i f).slots[j] = if j = i then u.slots[j].map f else u.slots[j] := by
  split
  · next same =>
    subst same
    exact Vector.getElem_set_self ..
  · next other => exact Vector.getElem_set_ne i.isLt j.isLt (fun e => other (Fin.ext e.symm))

theorem SlotUnit.ext_slots {u v : SlotUnit} (slots : ∀ j : Fin 4, u.slots[j] = v.slots[j]) (counter : u.counter = v.counter)
    (front : u.front = v.front) (filling : u.filling = v.filling) (sealing : u.sealed = v.sealed) : u = v := by
  obtain ⟨_, _, _, _, _⟩ := u
  obtain ⟨_, _, _, _, _⟩ := v
  simp only at slots counter front filling sealing
  rw [counter, front, filling, sealing, Vector.ext (fun j h => slots ⟨j, h⟩)]

theorem enabledSlots_get {n : Nat} {f j : Fin 4} {work : Work} {hold : Bool} : (enabledSlots n f work hold).slots[j] =
    if n ≤ j.val then none else some
      { state := if j = f then .published 0 else if j = firstOther f then .filling work else .free
        pins := 0, inFlight := 0, waiting := 0, hold := decide (j = f) && hold } := by
  simp only [enabledSlots, Fin.getElem_fin, Vector.getElem_ofFn]

theorem freshSlots_opened (n : Nat) (f : Fin 4) (work : Work) :
    { (freshSlots n f).onSlot (firstOther f) (fun x => { x with state := .filling work }) with
      filling := some (firstOther f) } = enabledSlots n f work false := by
  refine SlotUnit.ext_slots (fun j => ?_) rfl rfl rfl rfl
  have other := firstOther_ne f
  rw [SlotUnit.onSlot_get, freshSlots_get, enabledSlots_get]
  by_cases out : n ≤ j.val
  · simp [out, Nat.not_lt.mpr out]
  · by_cases is : j = firstOther f
    · subst is
      simp [out, Nat.lt_of_not_le out, other]
    · simp [out, Nat.lt_of_not_le out, is]

theorem enabledSlots_held (n : Nat) (f : Fin 4) (work : Work) :
    (enabledSlots n f work false).onSlot f (fun x => { x with hold := true }) = enabledSlots n f work true := by
  refine SlotUnit.ext_slots (fun j => ?_) rfl rfl rfl rfl
  rw [SlotUnit.onSlot_get, enabledSlots_get, enabledSlots_get]
  by_cases out : n ≤ j.val
  · simp [out]
  · by_cases is : j = f
    · subst is
      simp [out]
    · simp [out, is]

theorem enabledSlots_work (n : Nat) (f : Fin 4) (work : Work) (hold : Bool) (g : Work → Work) :
    (enabledSlots n f work hold).onSlot (firstOther f) (Slot.updWork g) = enabledSlots n f (g work) hold := by
  refine SlotUnit.ext_slots (fun j => ?_) rfl rfl rfl rfl
  have other := firstOther_ne f
  rw [SlotUnit.onSlot_get, enabledSlots_get, enabledSlots_get]
  by_cases out : n ≤ j.val
  · simp [out]
  · by_cases is : j = firstOther f
    · subst is
      simp [out, other, Slot.updWork]
    · simp [out, is]

theorem State.withSlots_onSlots (s : State) (w : Fin 16) (u : SlotUnit) (f : SlotUnit → SlotUnit) :
    (s.withSlots w u).onSlots w f = s.withSlots w (f u) := by
  simp [State.onSlots, State.withSlots]

theorem State.withSlots_slots (s : State) (w : Fin 16) (u : SlotUnit) : (s.withSlots w u).slots[w] = some u :=
  Vector.getElem_set_self ..

theorem enabledSlots_isWork {s : State} {w : Fin 16} {n : Nat} {f : Fin 4} {work : Work} {hold : Bool}
    (slots : s.slots[w] = some (enabledSlots n f work hold)) (inside : (firstOther f).val < n) :
    s.work w (firstOther f) = some work := by
  have record : (enabledSlots n f work hold).slots[firstOther f] =
      some { state := .filling work, pins := 0, inFlight := 0, waiting := 0, hold := false } := by
    rw [enabledSlots_get, if_neg (Nat.not_le.mpr inside), if_neg (firstOther_ne f), if_pos rfl,
      decide_eq_false (firstOther_ne f), Bool.false_and]
  rw [State.work, State.slot, slots]
  exact (congrArg (fun x => Option.bind x Slot.work) record).trans rfl

/-- A newly enabled slotted window opens its first slot that is not the front. -/
theorem enableWindow_opens {w : Fin 16} {d : Definition} {f : Fin 4} {s : State} (definition : s.definition w = some d)
    {blocks : Nat} {coverage : Coverage} {bases : List Addr} (shape : d.geometry = .slotted blocks coverage bases)
    (two : 2 ≤ bases.length) :
    enableWindow w d f s = allocateSlot w d (freshSlots bases.length f) (firstOther f)
      ((s.enabled w d).withSlots w (freshSlots bases.length f)) := by
  rw [enableWindow_slotted definition shape]
  refine allocate_slot ?_ ?_ ?_ rfl rfl (freshSlots_lowestFree f two)
  · exact congrArg Window.state (Vector.getElem_set_self ..)
  · exact congrArg Window.definition (Vector.getElem_set_self ..)
  · exact State.withSlots_slots ..

theorem enabled_opened (s : State) (w : Fin 16) (d : Definition) (f : Fin 4) (n : Nat) :
    ((s.enabled w d).withSlots w (freshSlots n f)).opened w d f (firstOther f) =
      (s.enabled w d).withSlots w (enabledSlots n f (newWork d f) false) := by
  rw [State.opened, State.withSlots_onSlots, freshSlots_opened]

end Sys2Proof.Machine

namespace Sys2Proof
open Machine

/-- Settles O48: the checks pass, and the allocation opens the first slot that is not the front. -/
theorem enableWindowTaken : Obligations.EnableWindowTaken := by
  intro w f d s ready defined definition wf fits bound worded nobody live
  have owner (t : State) (hasFront : d.hasSlot f.val) (same : enableWindow w d f s = t) :
      ownerEnableWindow [codeEnableWindow, byteOf w, byteOf f] s = .ok t := by
    have front : Fin.ofNat 4 f.val = f := Fin.ext (Nat.mod_eq_of_lt f.isLt)
    rw [ownerEnableWindow, withWindow_byteOf, defined, definition]
    simp only [field_two, toNat_byteOf (show 4 ≤ 256 by decide), enableCheck_pass wf fits hasFront bound worded, front, same]
  refine ⟨fun top visible staging bottom base shape => ?_, fun blocks coverage bases shape inside => ?_⟩
  · have hasFront : d.hasSlot f.val := by
      rw [Definition.hasSlot, shape]
      trivial
    exact congrArg _ (takeWrite_ok (t := { s.enabled w d with rolls := _ }) ready
      (owner _ hasFront (enableWindow_rolling definition shape)) rfl)
  · intro i unit
    have hasFront : d.hasSlot f.val := by
      rw [Definition.hasSlot, shape]
      exact inside
    have two : 2 ≤ bases.length := by
      obtain ⟨-, -, -, -, -, -, geometry⟩ := wf
      rw [shape] at geometry
      exact geometry.2.2.1
    have some_block : 1 ≤ blocks := by
      obtain ⟨-, -, -, -, -, -, geometry⟩ := wf
      rw [shape] at geometry
      exact geometry.1
    have units : d.units = blocks := by rw [Definition.units, shape]
    let fresh (work : Work) (hold : Bool) : State :=
      (s.enabled w d).withSlots w (enabledSlots bases.length f work hold)
    have taken := enableWindow_opens (f := f) definition shape two
    have running : ¬ s.link.part = .resetting := by
      rw [ready.1]
      decide
    have isBackfill (h : coverage = .backfill) : d.isBackfill = true := by rw [Definition.isBackfill, shape, h]
    have backfillWork (h : coverage = .backfill) :
        newWork d f = { map := List.replicate blocks .needsCopy, written := 0, source := some f } := by
      rw [newWork, isBackfill h, units]
      rfl
    have opens (h : coverage = .backfill) : enableWindow w d f s =
        mapSlotWaits w (firstOther f) (createJob w (firstOther f) (fresh (newWork d f) true)) := by
      rw [taken, allocateSlot_backfill (isBackfill h)]
      refine congrArg (fun t => mapSlotWaits w _ (createJob w _ t)) ?_
      refine (congrArg (fun t => State.updSlot t w _ _) (enabled_opened s w d f _)).trans ?_
      exact (State.withSlots_onSlots ..).trans (congrArg _ (enabledSlots_held ..))
    refine ⟨fun other => ?_, fun backfill busy => ?_, fun backfill idle calm alone => ?_⟩
    · have plain : d.isBackfill = false := by
        rw [Definition.isBackfill, shape]
        cases coverage with
        | backfill => exact absurd rfl other
        | asIs => rfl
        | requireFull => rfl
      have work : newWork d f = { map := List.replicate blocks .notWritten, written := 0, source := none } := by
        rw [newWork, plain, units]
        rfl
      refine congrArg _ (takeWrite_ok (t := fresh (newWork d f) false) ready (owner _ hasFront ?_) rfl |>.trans ?_)
      · rw [taken, allocateSlot_plain plain]
        exact (congrArg _ (enabled_opened ..)).trans (mapSlotWaits_none (by exact nobody) _)
      · rw [← work]
        rfl
    · have work := backfillWork backfill
      refine congrArg _ (takeWrite_ok (t := { fresh (newWork d f) true with
        copier := { s.copier with jobs := s.copier.jobs.set w (some (firstOther f)) } }) ready (owner _ hasFront ?_) rfl
          |>.trans ?_)
      · rw [opens backfill, createJob, if_neg (by exact running), kickCopier_busy (by exact busy)]
        exact mapSlotWaits_none (by exact nobody) _
      · rw [← work]
        rfl
    · have work := backfillWork backfill
      let job : Copier := { s.copier with jobs := s.copier.jobs.set w (some (firstOther f)) }
      have opened : State.work { fresh (newWork d f) true with copier := job } w (firstOther f) = some (newWork d f) :=
        enabledSlots_isWork (State.withSlots_slots ..) (Nat.lt_of_lt_of_le (firstOther_lt f) two)
      have chosen : kickCopier { fresh (newWork d f) true with copier := job } =
          startCopy w (firstOther f) (newWork d f).nextBlock
            { fresh (newWork d f) true with copier := { job with pointer := w } } := by
        refine kickCopier_only (by exact ready.1) idle calm (fun v other => ?_) (Vector.getElem_set_self ..) opened ?_
        · have slots : (fresh (newWork d f) true).slots[v] = s.slots[v] :=
            Vector.getElem_set_ne w.isLt v.isLt (fun e => other (Fin.ext e.symm))
          have jobs : job.jobs[v] = s.copier.jobs[v] :=
            Vector.getElem_set_ne w.isLt v.isLt (fun e => other (Fin.ext e.symm))
          exact (isCandidate_congr (t := { fresh (newWork d f) true with copier := job }) jobs slots).trans (alone v other)
        · rw [work]
          exact replicate_needsCopy.1 some_block
      refine congrArg _ (takeWrite_ok (t := { fresh { newWork d f with map := (newWork d f).map.set 0 .copying } true with
        copier := { job with
          pointer := w
          copy := some { window := w, source := f, dest := firstOther f, block := 0, attempt := .first, failed := false,
                         dropped := false, next := 0, written := 0 } } }) ready (owner _ hasFront ?_) rfl |>.trans ?_)
      · rw [opens backfill, createJob, if_neg (by exact running)]
        refine (congrArg (mapSlotWaits w _) (chosen.trans ?_)).trans (mapSlotWaits_none (by exact nobody) _)
        have first : (newWork d f).nextBlock = 0 := by
          rw [work]
          exact replicate_needsCopy.2 some_block
        have source : (State.work { fresh (newWork d f) true with copier := { job with pointer := w } } w
            (firstOther f)).bind Work.source = some f := by
          rw [show State.work { fresh (newWork d f) true with copier := { job with pointer := w } } w (firstOther f) =
            some (newWork d f) from opened, work]
          rfl
        rw [first, startCopy_eq source]
        have marked : setBlock w (firstOther f) 0 .copying (fresh (newWork d f) true) =
            fresh { newWork d f with map := (newWork d f).map.set 0 .copying } true :=
          (State.withSlots_onSlots ..).trans (congrArg _ (enabledSlots_work ..))
        exact congrArg (fun t : State => { t with copier := { job with
          pointer := w
          copy := some { window := w, source := f, dest := firstOther f, block := 0, attempt := .first, failed := false,
                         dropped := false, next := 0, written := 0 } } }) marked
      · rw [work]
        rfl

end Sys2Proof
end


section
/-! SUPPORT. The completion of a piece of a window (R18, R19, R36, R49): what it comes to while no allocation follows it,
and the reports of faults. -/

namespace Sys2Proof.Machine

/-! ### Allocation attempts that do nothing (R46) -/

theorem allocate_idle {w : Fin 16} {s : State} (h : s.windows[w].state ≠ .live ∨
    ∀ u, s.slots[w] = some u → u.filling ≠ none ∨ u.sealed ≠ none) : allocate w s = s := by
  unfold allocate
  split
  · rfl
  · next live =>
    split
    · next d u _ slots => rw [if_pos ((h.resolve_left live) u slots)]
    · rfl

/-- A slot after a piece to it has completed, no allocation following: its in-flight count falls, and a RETIRING slot
with both counts 0 becomes FREE (R49, R62). -/
def Slot.landed (x : Slot) : Slot :=
  { x with
    inFlight := x.inFlight - 1
    state := if x.state = .retiring ∧ x.inFlight ≤ 1 ∧ x.waiting = 0 then .free else x.state }

theorem State.slot_of {s : State} {w : Fin 16} {u : SlotUnit} (slots : s.slots[w] = some u) (i : Fin 4) :
    s.slot w i = u.slots[i] := by
  simp only [State.slot, slots]

theorem lowerSlotInFlight_eq {w : Fin 16} {i : Fin 4} {u : SlotUnit} {x : Slot} {s : State} (slots : s.slots[w] = some u)
    (slot : u.slots[i] = some x)
    (idle : x.state ≠ .retiring ∨ s.windows[w].state ≠ .live ∨ u.filling ≠ none ∨ u.sealed ≠ none) :
    lowerSlotInFlight w i s = s.withSlots w (u.onSlot i Slot.landed) := by
  have lowered (f : Slot → Slot) : s.updSlot w i f = s.withSlots w (u.onSlot i f) := by
    simp [State.updSlot_onSlots, State.onSlots, State.withSlots, show s.slots[w.val] = some u from slots]
  have is : (s.withSlots w (u.onSlot i (fun x => { x with inFlight := x.inFlight - 1 }))).slot w i =
      some { x with inFlight := x.inFlight - 1 } := by
    rw [State.slot_of (State.withSlots_slots ..), SlotUnit.onSlot_get, if_pos rfl, slot]
    rfl
  unfold lowerSlotInFlight freeRetiring
  rw [lowered, is]
  dsimp only
  split
  · next retires =>
    obtain ⟨retiring, flying, waiting⟩ := retires
    have quiet := idle.resolve_left (not_not_intro retiring)
    rw [State.updSlot_onSlots, State.withSlots_onSlots, SlotUnit.onSlot_onSlot, allocate_idle]
    · refine congrArg (s.withSlots w) (SlotUnit.onSlot_congr slot ?_)
      rw [Slot.landed, if_pos ⟨retiring, by omega, waiting⟩]
    · refine quiet.imp id (fun busy v slots => ?_)
      rw [State.withSlots_slots] at slots
      obtain rfl := Option.some.inj slots
      exact busy
  · next stays =>
    refine congrArg (s.withSlots w) (SlotUnit.onSlot_congr slot ?_)
    rw [Slot.landed, if_neg (fun h => stays ⟨h.1, by have := h.2.1; omega, h.2.2⟩)]

/-! ### The tallies of a completion (R18, R36) -/

/-- A piece of the window has completed, as its in-flight count shows. -/
def State.tallied (s : State) (w : Fin 16) : State :=
  { s with windows := s.windows.set w { s.windows[w] with inFlight := s.windows[w].inFlight - 1 } }

theorem State.tallied_state (s : State) (w : Fin 16) : (s.tallied w).windows[w].state = s.windows[w].state := by
  simp [State.tallied]

theorem countCompletion_slot {w : Fin 16} {p : Piece} {i : Fin 4} {u : SlotUnit} {x : Slot} {s : State}
    (target : p.target = .slot i) (slots : s.slots[w] = some u) (slot : u.slots[i] = some x)
    (idle : x.state ≠ .retiring ∨ s.windows[w].state ≠ .live ∨ u.filling ≠ none ∨ u.sealed ≠ none) :
    countCompletion w p s = (s.tallied w).withSlots w (u.onSlot i Slot.landed) := by
  simp only [countCompletion, target]
  exact lowerSlotInFlight_eq (s := s.tallied w) slots slot ((s.tallied_state w).symm ▸ idle)

theorem countCompletion_uncounted {w : Fin 16} {p : Piece} {n : Nat} (target : p.target = .line n none) (s : State) :
    countCompletion w p s = s.tallied w := by
  simp only [countCompletion, target]
  rfl

/-! ### Completion (R18, R19) -/

/-- An entry whose piece `k` has completed as `p`. -/
def Entry.withPiece (k : Nat) (p : Piece) (x : Entry) : Entry := { x with pieces := x.pieces.set k p }

/-- An entry whose piece `k` has completed as `p`, settled with its last piece. -/
def Entry.landed (k : Nat) (p : Piece) (finished : Bool) (x : Entry) : Entry :=
  if finished then (x.withPiece k p).settle else x.withPiece k p

theorem pieceCompleted_eq {e : Entry} {w : Fin 16} (window : e.window = some w) (m : Fin 16) (k : Nat) (p : Piece)
    (status : MemStatus) (s : State) : pieceCompleted m e k p status s =
      let t := countCompletion w p (s.updEntry m e.id (Entry.withPiece k p))
      let t := if status = .memfault then post (.memoryFault w m p.target.number e.request.kind) t else t
      let t := if (e.withPiece k p).allComplete = true then finishRequest m (e.withPiece k p) t else t
      if status = .memfault ∧ e.request.kind = .write then faultReport w .memfault t else t := by
  obtain ⟨id, request, window', stage, pieces, closing, inDrain, created, unresolved, taken⟩ := e
  obtain rfl : window' = some w := window
  rfl

theorem finishRequest_open {m : Fin 16} {e : Entry} {w : Fin 16} {s : State} (window : e.window = some w)
    (ordinary : ¬ (e.closing = true ∧ e.anyFault = false)) : finishRequest m e s =
      if e.inDrain = true then lowerDrain w (s.updEntry m e.id Entry.settle) else s.updEntry m e.id Entry.settle := by
  simp only [finishRequest, window, closingCommit, if_neg ordinary]

theorem Entry.anyFault_withPiece {e : Entry} {k : Nat} {p : Piece} (piece : e.pieces[k]?.isSome = true)
    (fault : p.stage = .faulted) : (e.withPiece k p).anyFault = true := by
  obtain ⟨q, is⟩ := Option.isSome_iff_exists.mp piece
  obtain ⟨inside, -⟩ := List.getElem?_eq_some_iff.mp is
  refine List.any_eq_true.mpr ⟨p, ?_, decide_eq_true fault⟩
  exact List.mem_iff_getElem.mpr ⟨k, by simpa [Entry.withPiece] using inside, by simp [Entry.withPiece]⟩

/-- Unless it is a closing write that succeeds, the entry moves on, and leaves its drain set with its last piece. -/
theorem finished_eq {m : Fin 16} {e : Entry} {k : Nat} {p : Piece} {w : Fin 16} {s : State} (window : e.window = some w)
    (ordinary : ¬ (e.closing = true ∧ (e.withPiece k p).anyFault = false)) :
    (if (e.withPiece k p).allComplete = true then
        finishRequest m (e.withPiece k p) (s.updEntry m e.id (Entry.withPiece k p))
      else s.updEntry m e.id (Entry.withPiece k p)) =
    (if (e.withPiece k p).allComplete && e.inDrain then lowerDrain w s else s).updEntry m e.id
      (Entry.landed k p (e.withPiece k p).allComplete) := by
  have settle : (s.updEntry m e.id (Entry.withPiece k p)).updEntry m e.id Entry.settle =
      s.updEntry m e.id (Entry.landed k p true) := s.updEntry_updEntry m e.id (fun _ => rfl)
  cases (e.withPiece k p).allComplete with
  | false => rfl
  | true =>
    rw [if_pos rfl, finishRequest_open (e := e.withPiece k p) window ordinary,
      show (e.withPiece k p).id = e.id from rfl, settle, show (e.withPiece k p).inDrain = e.inDrain from rfl]
    cases e.inDrain <;> rfl

/-- The completion of a window's piece that is not the last of a closing write that succeeds, its tallies being
`counted`. -/
theorem pieceCompleted_window {m : Fin 16} {e : Entry} {k : Nat} {p : Piece} {w : Fin 16} {s counted : State}
    (window : e.window = some w) (ordinary : ¬ (e.closing = true ∧ (e.withPiece k p).anyFault = false))
    (counts : countCompletion w p (s.updEntry m e.id (Entry.withPiece k p)) =
      counted.updEntry m e.id (Entry.withPiece k p)) (status : MemStatus) : pieceCompleted m e k p status s =
      let finished := (e.withPiece k p).allComplete
      let t := if status = .memfault then post (.memoryFault w m p.target.number e.request.kind) counted else counted
      let t := (if finished && e.inDrain then lowerDrain w t else t).updEntry m e.id (Entry.landed k p finished)
      if status = .memfault ∧ e.request.kind = .write then faultReport w .memfault t else t := by
  have posted : (if status = .memfault then post (.memoryFault w m p.target.number e.request.kind)
        (counted.updEntry m e.id (Entry.withPiece k p)) else counted.updEntry m e.id (Entry.withPiece k p)) =
      (if status = .memfault then post (.memoryFault w m p.target.number e.request.kind) counted
        else counted).updEntry m e.id (Entry.withPiece k p) := by
    split <;> rfl
  rw [pieceCompleted_eq window]
  dsimp only
  rw [counts, posted, finished_eq window ordinary]

theorem faultReport_unheard {w : Fin 16} {cause : HaltCause} {s : State} (h : s.windows[w].state ≠ .live ∨
    (s.definition w).any Definition.haltOnFault = false) : faultReport w cause s = s := by
  rw [faultReport, if_neg]
  rintro ⟨-, live, halts⟩
  rcases h with h | h
  · exact h live
  · rw [halts] at h
    cases h

theorem testReset_running {s : State} (h : s.link.part = .running) : testReset s = s := testReset_idle (.inl h)

/-- The fault of the one piece of a request to a slot that is not RETIRING, up to the report to its window. -/
theorem pieceCompleted_faulted {m : Fin 16} {e : Entry} {p : Piece} {w : Fin 16} {i : Fin 4} {u : SlotUnit} {x : Slot}
    {s : State} (window : e.window = some w) (pieces : e.pieces = [p]) (undrained : e.inDrain = false)
    (target : p.target = .slot i) (slots : s.slots[w] = some u) (slot : u.slots[i] = some x) (stays : x.state ≠ .retiring)
    (data : List Dword) : pieceCompleted m e 0 (p.complete e.request.kind .memfault data) .memfault s =
      let t := State.updEntry { (s.tallied w).withSlots w (u.onSlot i (fun x => { x with inFlight := x.inFlight - 1 })) with
          notice := s.notice.take (.memoryFault w m i.val e.request.kind) s.timebase }
        m e.id (fun x => Entry.settle { x with pieces := x.pieces.set 0 { p with stage := .faulted } })
      if e.request.kind = .write then faultReport w .memfault t else t := by
  have fault : p.complete e.request.kind .memfault data = { p with stage := .faulted } := by
    cases kind : e.request.kind <;> rfl
  rw [fault, pieceCompleted_window (counted := (s.tallied w).withSlots w (u.onSlot i Slot.landed)) window (fun h => ?_)
    ?_ .memfault]
  · have alone : u.onSlot i Slot.landed = u.onSlot i (fun x => { x with inFlight := x.inFlight - 1 }) := by
      refine SlotUnit.onSlot_congr slot ?_
      rw [Slot.landed, if_neg (fun h => stays h.1)]
    have last : (e.withPiece 0 { p with stage := .faulted }).allComplete = true := by
      simp [Entry.withPiece, Entry.allComplete, pieces]
    have number : ({ p with stage := .faulted } : Piece).target.number = i.val := congrArg Target.number target
    dsimp only
    rw [last, undrained, alone, number, if_pos rfl]
    by_cases write : e.request.kind = .write
    · rw [if_pos write, if_pos ⟨rfl, write⟩]
      rfl
    · rw [if_neg write, if_neg (fun h => write h.2)]
      rfl
  · exact countCompletion_slot (p := { p with stage := .faulted }) (x := x)
      (s := s.updEntry m e.id (Entry.withPiece 0 { p with stage := .faulted })) target slots slot (.inl stays)
  · rw [Entry.anyFault_withPiece (by rw [pieces]; rfl) rfl] at h
    exact nomatch h.2

end Sys2Proof.Machine

namespace Sys2Proof
open Machine

/-- Settles O27: the one piece of a request to a slot that is not RETIRING, its fault unheard by the window. -/
theorem pieceFaultReported : Obligations.PieceFaultReported := by
  refine ⟨fun tag data q m id e p w i u x s running place owner entry pieces window kind closing undrained target slots
      slot stays => ?_,
    fun tag data q m id e p w i u x d s running place owner entry pieces window kind undrained target slots slot stays
      definition unheard => ?_⟩
  all_goals
    obtain rfl : e.id = id := by simpa using List.find?_some entry
    rw [completePiece_eq place owner entry (by rw [pieces]; rfl),
      pieceCompleted_faulted (s := releasePlace tag s) window pieces undrained target slots slot stays, kind]
  · exact congrArg _ (testReset_running running)
  · rw [if_pos rfl, faultReport_unheard]
    · exact congrArg _ (testReset_running running)
    · have state : ((releasePlace tag s).tallied w).windows[w].state = s.windows[w].state := State.tallied_state ..
      have same : ((releasePlace tag s).tallied w).definition w = s.definition w := by
        simp [State.definition, State.tallied, releasePlace]
      rcases unheard with deaf | halted | draining
      · refine .inr (Eq.trans (congrArg _ same) ?_)
        rw [definition]
        exact deaf
      · exact .inl (fun h => nomatch halted.symm.trans (state.symm.trans h))
      · exact .inl (fun h => nomatch draining.symm.trans (state.symm.trans h))

end Sys2Proof
end


section
/-! SUPPORT. Answers from a wait (R64, R101) and the expiry of stall timers under STALL (R66, R99). -/

namespace Sys2Proof.Machine

/-! ### Answers from a wait -/

/-- The state in which a waiting request `e` of window `w` has been answered, its pieces not yet forgotten. -/
def State.answered (s : State) (m : Fin 16) (e : Entry) (w : Fin 16) (reason : Reason) : State :=
  State.updEntry { s with
      stallTimers := s.stallTimers.set m none
      windows := s.windows.set w { s.windows[w] with waiting := s.windows[w].waiting - 1 }
      commits := if e.inDrain
        then s.commits.set w { s.commits[w] with
          current := s.commits[w].current.map (fun c => { c with drain := c.drain - 1 }) }
        else s.commits
      notice := s.notice.take (deniedNotice (some w) m reason e.request) s.timebase }
    m e.id (fun x => { x with stage := .complete (deniedResponse x.request), inDrain := false })

theorem answerWaiting_eq {m : Fin 16} {e : Entry} {w : Fin 16} {s : State} (current : s.current m = some e)
    (window : e.window = some w) (reason : Reason) :
    answerWaiting m reason s = e.pieces.foldl (fun t p => forgetPiece w p t) (s.answered m e w reason) := by
  simp only [answerWaiting, current, window, State.answered]
  cases e.inDrain <;> rfl

theorem forgetPiece_uncounted {w : Fin 16} {p : Piece} {n : Nat} (target : p.target = .line n none) (s : State) :
    forgetPiece w p s = s := by
  unfold forgetPiece
  split
  · rfl
  · rw [target]

theorem foldl_fixed {α : Type} {f : State → α → State} {l : List α} {s : State} (h : ∀ x ∈ l, f s x = s) :
    l.foldl f s = s := by
  induction l with
  | nil => rfl
  | cons x l ih => rw [List.foldl_cons, h x (by simp)]; exact ih (fun y hy => h y (by simp [hy]))

/-! ### Stall timers -/

theorem timerDue_running {s : State} {m : Fin 16} {x : Timer} (timer : s.stallTimers[m] = some x) :
    timerDue s m = decide (x.limit ≤ (s.timebase - x.start).toNat) := by
  simp only [timerDue, timer]
  rfl

theorem timerDue_early {s : State} {m : Fin 16}
    (early : ∀ x, s.stallTimers[m] = some x → (s.timebase - x.start).toNat < x.limit) : timerDue s m = false := by
  cases timer : s.stallTimers[m] with
  | none => rw [timerDue, timer]; rfl
  | some x => rw [timerDue_running timer, decide_eq_false (Nat.not_le.mpr (early x timer))]

theorem timerDue_late {s : State} {m : Fin 16} {x : Timer} (timer : s.stallTimers[m] = some x)
    (late : x.limit ≤ (s.timebase - x.start).toNat) : timerDue s m = true := by
  rw [timerDue_running timer, decide_eq_true late]

theorem expireSlotWait_due {s : State} {m : Fin 16} {e : Entry} {w : Fin 16} {d : Definition} (due : timerDue s m = true)
    (current : s.current m = some e) (waits : e.inSlotWait = true) (window : e.window = some w)
    (definition : s.definition w = some d) : expireSlotWait m s =
      match d.policy with
      | .stall => answerWaiting m .slotExhausted s
      | .reclaim => reclaimSlot w (stopTimer m s) := by
  simp only [expireSlotWait, due, current, waits, window, definition, Bool.true_eq_false, if_false] <;> rfl

theorem expireVisibilityWait_due {s : State} {m : Fin 16} {e : Entry} {w : Fin 16} {d : Definition}
    (due : timerDue s m = true) (current : s.current m = some e) (waits : e.hasCond .visibility = true)
    (window : e.window = some w) (definition : s.definition w = some d) : expireVisibilityWait m s =
      match d.policy with
      | .stall => answerWaiting m .targetVisible s
      | .reclaim => reclaimTarget w (stopTimer m s) := by
  simp only [expireVisibilityWait, due, current, waits, window, definition, Bool.true_eq_false, if_false] <;> rfl

end Sys2Proof.Machine

namespace Sys2Proof
open Machine

/-- Settles O37: an expiry that is due answers the wait, whose pieces count nowhere; one that is not does nothing. -/
theorem stallExpiryAnswersWait : Obligations.StallExpiryAnswersWait := by
  refine ⟨⟨fun m s early => ?_, fun m x e w d s timer late current slotWait unmapped window definition policy => ?_⟩,
    fun m x e w d s timer late current waits uncounted window definition policy => ?_⟩
  · have due := timerDue_early early
    exact ⟨congrArg _ (if_pos due), congrArg _ (if_pos due)⟩
  · have inSlotWait : e.inSlotWait = true := by rw [Entry.inSlotWait, slotWait]; rfl
    refine congrArg Host.Outcome.next (?_ : expireSlotWait m s = _)
    rw [expireSlotWait_due (timerDue_late timer late) current inSlotWait window definition, policy]
    exact (answerWaiting_eq current window _).trans (by rw [unmapped]; rfl)
  · refine congrArg Host.Outcome.next (?_ : expireVisibilityWait m s = _)
    rw [expireVisibilityWait_due (timerDue_late timer late) current waits window definition, policy]
    refine (answerWaiting_eq current window _).trans (foldl_fixed (fun p listed => ?_))
    obtain ⟨n, target⟩ := uncounted p listed
    exact forgetPiece_uncounted target _

end Sys2Proof
end


section
/-! SUPPORT. A master's current request as the one WAITING entry of its list (R6), the order in which the masters' waits
are taken, and the release of visibility waits (R98). -/

namespace Sys2Proof.Machine

/-! ### The current request (R6) -/

theorem State.current_eq_some {s : State} {m : Fin 16} {e : Entry} (h : s.current m = some e) :
    e ∈ s.responses[m] ∧ e.isWaiting = true := ⟨List.mem_of_find?_eq_some h, List.find?_some h⟩

theorem State.current_eq_none {s : State} {m : Fin 16} (h : s.current m = none) {e : Entry} (listed : e ∈ s.responses[m]) :
    e.isWaiting = false := by
  simpa using List.find?_eq_none.mp h e listed

/-- A list with at most one entry of a kind has no other than the one found. -/
theorem eq_of_countP_le_one {α : Type} {p : α → Bool} {l : List α} (one : l.countP p ≤ 1) {a b : α} (ha : l.find? p = some a)
    (hb : b ∈ l) (is : p b = true) : b = a := by
  induction l with
  | nil => cases hb
  | cons x l ih =>
    by_cases hx : p x = true
    · rw [List.countP_cons_of_pos hx] at one
      have rest : l.countP p = 0 := by omega
      rw [List.find?_cons_of_pos hx] at ha
      obtain rfl := Option.some.inj ha
      rcases List.mem_cons.mp hb with same | later
      · exact same
      · exact absurd is (List.countP_eq_zero.mp rest b later)
    · rw [List.countP_cons_of_neg hx] at one
      rw [List.find?_cons_of_neg hx] at ha
      rcases List.mem_cons.mp hb with same | later
      · exact absurd (same ▸ is) hx
      · exact ih one ha later

theorem State.oneWaiting.unique {s : State} (one : s.oneWaiting) {m : Fin 16} {e x : Entry} (current : s.current m = some e)
    (listed : x ∈ s.responses[m]) (waits : x.isWaiting = true) : x = e :=
  eq_of_countP_le_one (one m).2.2 current listed waits

theorem State.oneWaiting.of_id {s : State} (one : s.oneWaiting) {m : Fin 16} {e x : Entry} (current : s.current m = some e)
    (listed : x ∈ s.responses[m]) (same : x.id = e.id) : x = e :=
  List.inj_on_of_nodup_map (one m).1 listed (State.current_eq_some current).1 same

/-- With one WAITING entry, what is done to the current request is done to every entry of the list that waits so. -/
theorem State.oneWaiting.map_current {s : State} (one : s.oneWaiting) {m : Fin 16} {e : Entry}
    (current : s.current m = some e) {test : Entry → Bool} (waiting : ∀ x, test x = true → x.isWaiting = true)
    (passes : test e = true) (f : Entry → Entry) :
    s.responses[m].map (fun x => if x.id = e.id then f x else x) =
      s.responses[m].map (fun x => if test x = true then f x else x) := by
  refine List.map_congr_left (fun x listed => ?_)
  by_cases same : x.id = e.id
  · rw [if_pos same, if_pos (one.of_id current listed same ▸ passes)]
  · rw [if_neg same, if_neg (fun h => same (one.unique current listed (waiting x h) ▸ rfl))]

/-- No entry of a list passes a test of WAITING entries that the current request fails. -/
theorem State.oneWaiting.none_passes {s : State} (one : s.oneWaiting) {m : Fin 16} {test : Entry → Bool}
    (waiting : ∀ x, test x = true → x.isWaiting = true) (fails : ∀ e, s.current m = some e → test e = false) :
    ∀ x ∈ s.responses[m], test x = false := by
  intro x listed
  rw [Bool.eq_false_iff]
  intro passes
  cases current : s.current m with
  | none => exact nomatch (waiting x passes).symm.trans (State.current_eq_none current listed)
  | some e =>
    obtain rfl := one.unique current listed (waiting x passes)
    exact nomatch passes.symm.trans (fails x current)

theorem find?_map_one {l : List Entry} {e : Entry} {f : Entry → Entry} (ids : (l.map Entry.id).Nodup)
    (one : l.countP Entry.isWaiting ≤ 1) (current : l.find? Entry.isWaiting = some e) :
    (l.map (fun x => if x.id = e.id then f x else x)).find? Entry.isWaiting =
      if (f e).isWaiting = true then some (f e) else none := by
  induction l with
  | nil => cases current
  | cons x l ih =>
    rw [List.map_cons, List.nodup_cons] at ids
    obtain ⟨fresh, ids'⟩ := ids
    by_cases waits : x.isWaiting = true
    · rw [List.find?_cons_of_pos waits] at current
      obtain rfl := Option.some.inj current
      rw [List.countP_cons_of_pos waits] at one
      have others : l.map (fun y => if y.id = x.id then f y else y) = l := by
        refine (List.map_congr_left (fun y listed => if_neg (fun same => ?_))).trans (List.map_id l)
        exact fresh (List.mem_map.mpr ⟨y, listed, same⟩)
      have quiet : l.find? Entry.isWaiting = none :=
        List.find?_eq_none.mpr (List.countP_eq_zero.mp (by omega))
      rw [List.map_cons, others, if_pos rfl]
      by_cases still : (f x).isWaiting = true
      · rw [List.find?_cons_of_pos still, if_pos still]
      · rw [List.find?_cons_of_neg still, if_neg still, quiet]
    · rw [List.find?_cons_of_neg waits] at current
      rw [List.countP_cons_of_neg waits] at one
      have other : x.id ≠ e.id := fun same => fresh (List.mem_map.mpr ⟨e, List.mem_of_find?_eq_some current, same.symm⟩)
      rw [List.map_cons, if_neg other, List.find?_cons_of_neg waits]
      exact ih ids' one current

/-- The current request after it has changed. -/
theorem State.oneWaiting.current_updEntry {s : State} (one : s.oneWaiting) {m : Fin 16} {e : Entry}
    (current : s.current m = some e) (f : Entry → Entry) :
    (s.updEntry m e.id f).current m = if (f e).isWaiting = true then some (f e) else none := by
  rw [State.current, State.updEntry_responses, upd_same]
  exact find?_map_one (one m).1 (one m).2.2 current

theorem State.current_updEntry_ne (s : State) {m n : Fin 16} (other : n ≠ m) (id : Nat) (f : Entry → Entry) :
    (s.updEntry m id f).current n = s.current n := by
  rw [State.current, State.updEntry_responses, upd_ne _ _ (Ne.symm other)]
  rfl

/-! ### The masters in order -/

/-- What holds after each master's turn holds after all. -/
theorem forMasters_induct {P : List (Fin 16) → State → Prop} {f : Fin 16 → State → State} {s : State} (start : P [] s)
    (next : ∀ done m t, m ∉ done → P done t → P (done ++ [m]) (f m t)) : P masters (forMasters f s) := by
  have run (rest done : List (Fin 16)) (t : State) (nodup : (done ++ rest).Nodup) (h : P done t) :
      P (done ++ rest) (rest.foldl (fun t m => f m t) t) := by
    induction rest generalizing done t with
    | nil => rwa [List.append_nil]
    | cons m rest ih =>
      have fresh : m ∉ done := fun listed =>
        (List.nodup_append.mp nodup).2.2 m listed m List.mem_cons_self rfl
      have split : done ++ m :: rest = (done ++ [m]) ++ rest := by simp
      rw [split] at nodup ⊢
      exact ih _ _ nodup (next done m t fresh h)
  exact run masters [] s (by decide) start

theorem State.oneWaiting.works {s t : State} (one : s.oneWaiting) (works : Works s t) : t.oneWaiting :=
  oneWaiting_of_names works.nextId works.entries works.waiting one

/-- Where each master's turn rewrites that master's list and stall timer alone, all turns together rewrite all. -/
theorem forMasters_cells {f : Fin 16 → State → State} {s : State} (lists : Fin 16 → List Entry)
    (timers : Fin 16 → Option Timer)
    (each : ∀ (m : Fin 16) (responses : Vector (List Entry) 16) (stallTimers : Vector (Option Timer) 16),
      responses[m] = s.responses[m] → stallTimers[m] = s.stallTimers[m] →
      f m { s with responses := responses, stallTimers := stallTimers } =
        { s with responses := responses.set m (lists m), stallTimers := stallTimers.set m (timers m) }) :
    forMasters f s = { s with responses := Vector.ofFn lists, stallTimers := Vector.ofFn timers } := by
  have turns := forMasters_induct (f := f) (s := s)
    (P := fun done t => ∃ responses stallTimers,
      t = { s with responses := responses, stallTimers := stallTimers } ∧
      ∀ m : Fin 16, responses[m] = (if m ∈ done then lists m else s.responses[m]) ∧
        stallTimers[m] = if m ∈ done then timers m else s.stallTimers[m])
    ⟨_, _, rfl, fun m => ⟨rfl, rfl⟩⟩
    (by
      rintro done m _ fresh ⟨responses, stallTimers, rfl, cells⟩
      obtain ⟨list, timer⟩ := cells m
      rw [if_neg fresh] at list timer
      refine ⟨_, _, each m responses stallTimers list timer, fun n => ?_⟩
      by_cases same : n = m
      · subst same
        simp
      · have apart : m.val ≠ n.val := fun e => same (Fin.ext e.symm)
        obtain ⟨list', timer'⟩ := cells n
        simp only [Fin.getElem_fin] at list' timer'
        simp [Vector.getElem_set_ne _ _ apart, list', timer', same])
  obtain ⟨responses, stallTimers, is, cells⟩ := turns
  have all (m : Fin 16) : responses[m] = lists m ∧ stallTimers[m] = timers m := by
    simpa only [if_pos (mem_masters m)] using cells m
  have lists' : responses = Vector.ofFn lists :=
    Vector.ext fun i h => (all ⟨i, h⟩).1.trans (Vector.getElem_ofFn h).symm
  have timers' : stallTimers = Vector.ofFn timers :=
    Vector.ext fun i h => (all ⟨i, h⟩).2.trans (Vector.getElem_ofFn h).symm
  rw [is, lists', timers']

/-! ### Visibility waits (R98) -/

theorem Entry.awaitsTarget_iff {w : Fin 16} {e : Entry} : e.awaitsTarget w = true ↔
    e.isWaiting = true ∧ e.window = some w ∧ e.hasCond .visibility = true := by
  simp [Entry.awaitsTarget, and_assoc]

/-- The state after every write of window `w` in a visibility wait is released. -/
def State.seen (s : State) (w : Fin 16) : State :=
  { s with
    responses := s.responses.map (List.map (fun e => if e.awaitsTarget w = true then e.clearVisibility else e))
    stallTimers := Vector.ofFn (fun m => if s.responses[m].any (Entry.awaitsTarget w) then none else s.stallTimers[m]) }

theorem releaseVisibility_eq {w : Fin 16} {d : Definition} {u : RollState} {s : State} (one : s.oneWaiting)
    (definition : s.definition w = some d) (rolls : s.rolls[w] = some u) :
    releaseVisibility w s = if u.clear d = true then s.seen w else s := by
  unfold releaseVisibility
  rw [definition, rolls]
  dsimp only
  by_cases clear : u.clear d = true
  · rw [if_neg (by rw [clear]; nofun), if_pos clear]
    refine (forMasters_cells
      (fun m => s.responses[m].map (fun e => if e.awaitsTarget w = true then e.clearVisibility else e))
      (fun m => if s.responses[m].any (Entry.awaitsTarget w) then none else s.stallTimers[m]) ?_).trans ?_
    · intro m responses stallTimers list timer
      have current : ({ s with responses := responses, stallTimers := stallTimers } : State).current m = s.current m :=
        congrArg (List.find? Entry.isWaiting) list
      have awaiting (x : Entry) (h : x.awaitsTarget w = true) : x.isWaiting = true := (Entry.awaitsTarget_iff.mp h).1
      have idle (fails : ∀ e, s.current m = some e → e.awaitsTarget w = false) :
          { s with responses := responses, stallTimers := stallTimers } = { s with
            responses := responses.set m
              (s.responses[m].map (fun e => if e.awaitsTarget w = true then e.clearVisibility else e))
            stallTimers := stallTimers.set m
              (if s.responses[m].any (Entry.awaitsTarget w) then none else s.stallTimers[m]) } := by
        have none_passes := one.none_passes awaiting fails
        have same : s.responses[m].map (fun e => if e.awaitsTarget w = true then e.clearVisibility else e) =
            responses[m] := list ▸ (List.map_congr_left (fun x listed => if_neg (by rw [none_passes x (list ▸ listed)]; nofun))).trans
              (List.map_id _)
        have quiet : s.responses[m].any (Entry.awaitsTarget w) = false :=
          List.any_eq_false.mpr (fun x listed => by rw [none_passes x listed]; nofun)
        rw [same, quiet, if_neg nofun, ← timer]
        simp
      cases is : s.current m with
      | none =>
        simp only [current, is]
        exact idle (fun e h => nomatch is.symm.trans h)
      | some e =>
        simp only [current, is]
        obtain ⟨listed, waits⟩ := State.current_eq_some is
        split
        · next released =>
          have passes : e.awaitsTarget w = true := Entry.awaitsTarget_iff.mpr ⟨waits, released⟩
          have some_passes : s.responses[m].any (Entry.awaitsTarget w) = true := List.any_eq_true.mpr ⟨e, listed, passes⟩
          rw [some_passes, if_pos rfl, ← one.map_current is awaiting passes, ← list]
          rfl
        · next stays =>
          refine idle (fun x h => Bool.eq_false_iff.mpr (fun passes => stays ?_))
          obtain rfl := Option.some.inj (h.symm.trans is)
          exact (Entry.awaitsTarget_iff.mp passes).2
    · have lists : Vector.ofFn (fun m : Fin 16 => s.responses[m].map
          (fun e => if e.awaitsTarget w = true then e.clearVisibility else e)) = s.responses.map (List.map
          (fun e => if e.awaitsTarget w = true then e.clearVisibility else e)) :=
        Vector.ext fun i h => by simp
      rw [State.seen, lists]
  · rw [if_pos (by simpa using clear), if_neg clear]

theorem Entry.clearVisibility_eq (e : Entry) : e.clearVisibility =
    { e with pieces := e.pieces.map (fun p => { p with cond := if p.cond = .visibility then .clear else p.cond }) } := by
  refine congrArg (fun pieces => { e with pieces := pieces }) (List.map_congr_left (fun p _ => ?_))
  split <;> rfl

/-- The state with this roll state for one window. -/
def State.withRoll (s : State) (w : Fin 16) (u : RollState) : State := { s with rolls := s.rolls.set w (some u) }

theorem State.withRoll_rolls (s : State) (w : Fin 16) (u : RollState) : (s.withRoll w u).rolls[w] = some u :=
  Vector.getElem_set_self ..

theorem State.updRoll_eq {s : State} {w : Fin 16} {u : RollState} (rolls : s.rolls[w] = some u)
    (f : RollState → RollState) : s.updRoll w f = s.withRoll w (f u) := by
  simp only [State.updRoll, upd, rolls, Option.map_some, State.withRoll]

/-- A counted read of a ring position has ended (R95). -/
theorem lowerRead_eq {w : Fin 16} {d : Definition} {u : RollState} {s : State} (definition : s.definition w = some d)
    (rolls : s.rolls[w] = some u) (q : Nat) : lowerRead w q s =
      if d.targetPosition u.origin = q then
        releaseVisibility w (s.withRoll w { u with reads := u.reads.modify q (· - 1) })
      else s.withRoll w { u with reads := u.reads.modify q (· - 1) } := by
  unfold lowerRead
  rw [State.updRoll_eq rolls]
  have same (u' : RollState) : (s.withRoll w u').definition w = some d := definition
  simp only [same, State.withRoll_rolls]

/-- A view of the window leaves seeing (R96, R98). -/
theorem leaveSeeing_eq {w : Fin 16} {d : Definition} {u : RollState} {s : State} (one : s.oneWaiting)
    (definition : s.definition w = some d) (rolls : s.rolls[w] = some u) :
    leaveSeeing w s = s.leftSeeing w d u := by
  have clear : ({ u with seeing := u.seeing - 1 } : RollState).clear d =
      (decide (u.seeing ≤ 1) && decide (u.readCount (d.targetPosition u.origin) = 0)) := by
    rw [RollState.clear, show decide (u.seeing - 1 = 0) = decide (u.seeing ≤ 1) from decide_eq_decide.mpr (by omega)]
    rfl
  have released : (fun e : Entry => if e.awaitsTarget w = true then e.clearVisibility else e) = (fun e => if e.awaitsTarget w
      then { e with pieces := e.pieces.map (fun p => { p with cond := if p.cond = .visibility then .clear else p.cond }) }
      else e) := funext fun e => by rw [Entry.clearVisibility_eq]
  rw [leaveSeeing, State.updRoll_eq rolls, releaseVisibility_eq (s := s.withRoll w _) one definition
    (State.withRoll_rolls ..), clear, State.seen, released, State.leftSeeing]
  cases decide (u.seeing ≤ 1) && decide (u.readCount (d.targetPosition u.origin) = 0) <;> rfl

/-! ### What is left of a current request -/

/-- A change of another entry that makes nothing wait leaves the current request. -/
theorem State.current_updEntry_other {s : State} {m : Fin 16} {x : Entry} (current : s.current m = some x) {n : Fin 16}
    {id : Nat} (other : n = m → x.id ≠ id) {f : Entry → Entry} (calm : ∀ y, (f y).isWaiting = true → y.isWaiting = true) :
    (s.updEntry n id f).current m = some x := by
  by_cases same : m = n
  · subst same
    have apart := other rfl
    rw [State.current] at current ⊢
    rw [State.updEntry_responses, upd_same]
    generalize s.responses[m] = list at current
    induction list with
    | nil => cases current
    | cons y list ih =>
      rw [List.map_cons]
      by_cases waits : y.isWaiting = true
      · rw [List.find?_cons_of_pos waits] at current
        obtain rfl := Option.some.inj current
        rw [if_neg apart, List.find?_cons_of_pos waits]
      · rw [List.find?_cons_of_neg waits] at current
        have still : ¬ (if y.id = id then f y else y).isWaiting = true := by
          split
          · exact fun h => waits (calm y h)
          · exact waits
        rw [List.find?_cons_of_neg still]
        exact ih current
  · rwa [State.current_updEntry_ne s same]

theorem State.seen_current (s : State) (w m : Fin 16) : (s.seen w).current m =
    (s.current m).map (fun e => if e.awaitsTarget w = true then e.clearVisibility else e) := by
  have list : (s.seen w).responses[m] =
      s.responses[m].map (fun e => if e.awaitsTarget w = true then e.clearVisibility else e) := by simp [State.seen]
  rw [State.current, list, List.find?_map]
  refine congrArg (Option.map _) (congrArg (fun p => s.responses[m].find? p) (funext fun e => ?_))
  rw [Function.comp_apply]
  split <;> rfl

theorem State.seen_timer {s : State} {w m : Fin 16} {e : Entry} (current : s.current m = some e)
    (awaits : e.awaitsTarget w = true) : (s.seen w).stallTimers[m] = none := by
  have listed : s.responses[m].any (Entry.awaitsTarget w) = true :=
    List.any_eq_true.mpr ⟨e, (State.current_eq_some current).1, awaits⟩
  exact (Vector.getElem_ofFn m.isLt).trans (if_pos listed)

theorem Entry.settle_calm (e : Entry) (h : e.settle.isWaiting = true) : e.isWaiting = true := by
  simp only [Entry.settle, Entry.isWaiting] at h
  split at h
  · next is => split at is <;> cases is
  · cases h

theorem Entry.clearVisibility_hasCond (e : Entry) : e.clearVisibility.hasCond .visibility = false := by
  refine List.any_eq_false.mpr (fun q listed => ?_)
  obtain ⟨p, -, rfl⟩ := List.mem_map.mp listed
  split
  · simp
  · next h => simpa using h

theorem RollState.readCount_modify (u : RollState) (j : Nat) (h : u.reads[j]? = some 1) :
    ({ u with reads := u.reads.modify j (· - 1) } : RollState).readCount j = 0 := by
  simp [RollState.readCount, List.getD_eq_getElem?_getD, h]

end Sys2Proof.Machine

namespace Sys2Proof
open Machine

/-- Settles O26: the last counted read of the target position leaves it clear, and what follows in the completion leaves
the released writes alone, being about a READ. -/
theorem lastTargetReadReleasesWrites : Obligations.LastTargetReadReleasesWrites := by
  intro tag status data q m id k e p w n j d u s one running place owner entry piece window kind closing target definition
    rolls position last unseen
  obtain rfl : e.id = id := by simpa using List.find?_some entry
  have listed := List.mem_of_find?_eq_some entry
  have not_write : ¬ (status = .memfault ∧ e.request.kind = .write) := fun h => nomatch kind.symm.trans h.2
  refine ⟨_, completePiece_eq place owner entry piece status data, fun m' e' current window' kind' waits => ?_⟩
  have other : m = m' → e'.id ≠ e.id := by
    rintro rfl same
    obtain rfl := one.of_id current listed same.symm
    exact nomatch kind.symm.trans kind'
  have awaits : e'.awaitsTarget w = true :=
    Entry.awaitsTarget_iff.mpr ⟨(State.current_eq_some current).2, window', waits⟩
  let landed : Piece := p.complete e.request.kind status data
  let s₁ : State := ((releasePlace tag s).updEntry m e.id (Entry.withPiece k landed)).tallied w
  let u' : RollState := { u with reads := u.reads.modify j (· - 1) }
  have one₁ : s₁.oneWaiting := State.oneWaiting.works (s := releasePlace tag s)
    (t := (releasePlace tag s).updEntry m e.id (Entry.withPiece k landed)) one
    (Works.updEntry _ m e.id _ (fun _ => rfl) (fun _ h => h))
  have current₁ : s₁.current m' = some e' :=
    State.current_updEntry_other (s := releasePlace tag s) current other (fun _ h => h)
  have counts : countCompletion w landed ((releasePlace tag s).updEntry m e.id (Entry.withPiece k landed)) =
      (s₁.withRoll w u').seen w := by
    have definition₁ : s₁.definition w = some d := by
      simpa [State.definition, s₁, State.tallied, releasePlace, State.updEntry] using definition
    have clear : u'.clear d = true := by
      have unread : u'.readCount j = 0 := u.readCount_modify j last
      have unseen' : u'.seeing = 0 := unseen
      rw [RollState.clear, show u'.origin = u.origin from rfl, position, unread, unseen']
      rfl
    simp only [countCompletion, show landed.target = .line n (some j) from target]
    refine (lowerRead_eq (s := s₁) definition₁ rolls j).trans ?_
    rw [if_pos position, releaseVisibility_eq (s := s₁.withRoll w u') (d := d) (u := u') one₁ definition₁
      (State.withRoll_rolls ..), if_pos clear]
  have after : ((s₁.withRoll w u').seen w).current m' = some e'.clearVisibility ∧
      ((s₁.withRoll w u').seen w).stallTimers[m'] = none := by
    refine ⟨?_, State.seen_timer (s := s₁.withRoll w u') current₁ awaits⟩
    rw [State.seen_current, show (s₁.withRoll w u').current m' = some e' from current₁, Option.map_some, if_pos awaits]
  have finished (t : State) (h : t.current m' = some e'.clearVisibility ∧ t.stallTimers[m'] = none) :
      (finishRequest m (e.withPiece k landed) t).current m' = some e'.clearVisibility ∧
        (finishRequest m (e.withPiece k landed) t).stallTimers[m'] = none := by
    have settled : (t.updEntry m (e.withPiece k landed).id Entry.settle).current m' = some e'.clearVisibility :=
      State.current_updEntry_other h.1 other Entry.settle_calm
    rw [finishRequest_open (e := e.withPiece k landed) window (fun h => nomatch closing.symm.trans h.1)]
    split
    · exact ⟨settled, h.2⟩
    · exact ⟨settled, h.2⟩
  have done : (pieceCompleted m e k landed status (releasePlace tag s)).current m' = some e'.clearVisibility ∧
      (pieceCompleted m e k landed status (releasePlace tag s)).stallTimers[m'] = none := by
    rw [pieceCompleted_eq window, counts]
    dsimp only
    rw [if_neg not_write]
    split
    · refine finished _ ?_
      split
      · exact after
      · exact after
    · split
      · exact after
      · exact after
  have still := (works_pieceCompleted m e k landed status (releasePlace tag s)).link
  rw [testReset_running (still ▸ running)]
  exact ⟨done.2, _, done.1, rfl, Entry.clearVisibility_hasCond e'⟩

end Sys2Proof
end


section
/-! SUPPORT. What the slot manager and the roll unit leave alone (`Shifts`), and the view unit's part of a consumer's read
(R111 to R115). -/

namespace Sys2Proof.Machine

/-! ### The tables a mapping owner works on -/

/-- From `s` to `t` at most the response lists, stall timers, slots, roll states and the copier have changed. -/
def Shifts (s t : State) : Prop :=
  t = { s with
    responses := t.responses, stallTimers := t.stallTimers, slots := t.slots, rolls := t.rolls, copier := t.copier }

namespace Shifts

theorem refl (s : State) : Shifts s s := rfl

theorem trans {s t u : State} (a : Shifts s t) (b : Shifts t u) : Shifts s u := by
  rw [Shifts, b, a]

theorem foldl {α : Type} (f : State → α → State) (h : ∀ t x, Shifts t (f t x)) (l : List α) (s : State) :
    Shifts s (l.foldl f s) := by
  induction l generalizing s with
  | nil => exact refl s
  | cons x l ih => exact (h s x).trans (ih _)

theorem forMasters (f : Fin 16 → State → State) (h : ∀ m t, Shifts t (f m t)) (s : State) :
    Shifts s (Machine.forMasters f s) := foldl _ (fun t m => h m t) _ s

theorem views {s t : State} (h : Shifts s t) : t.views = s.views := by rw [h]
theorem view {s t : State} (h : Shifts s t) (w : Fin 16) (c : Fin 8) : t.view w c = s.view w c := by rw [h]; rfl
theorem notice {s t : State} (h : Shifts s t) : t.notice = s.notice := by rw [h]
theorem commits {s t : State} (h : Shifts s t) : t.commits = s.commits := by rw [h]
theorem windows {s t : State} (h : Shifts s t) : t.windows = s.windows := by rw [h]
theorem consumers {s t : State} (h : Shifts s t) : t.consumers = s.consumers := by rw [h]
theorem timebase {s t : State} (h : Shifts s t) : t.timebase = s.timebase := by rw [h]
theorem link {s t : State} (h : Shifts s t) : t.link = s.link := by rw [h]
theorem nextId {s t : State} (h : Shifts s t) : t.nextId = s.nextId := by rw [h]
theorem definition {s t : State} (h : Shifts s t) (w : Fin 16) : t.definition w = s.definition w := by
  rw [State.definition, h.windows]; rfl

end Shifts

theorem shifts_startCopy (w : Fin 16) (i : Fin 4) (b : Nat) (s : State) : Shifts s (startCopy w i b s) := by
  unfold startCopy
  split <;> rfl

theorem shifts_updCopier (s : State) (f : Copier → Copier) : Shifts s (s.updCopier f) := rfl

theorem shifts_updSlot (s : State) (w : Fin 16) (i : Fin 4) (f : Slot → Slot) : Shifts s (s.updSlot w i f) := rfl

theorem shifts_kickCopier (s : State) : Shifts s (kickCopier s) := by
  unfold kickCopier
  split
  · rfl
  split
  · rfl
  split
  · exact (shifts_updCopier ..).trans (shifts_startCopy ..)
  split
  · rfl
  split
  · rfl
  split
  · rfl
  · exact (shifts_updCopier ..).trans (shifts_startCopy ..)

theorem shifts_addUrgent (u : Urgent) (s : State) : Shifts s (addUrgent u s) := by
  unfold addUrgent
  split
  · rfl
  · exact (shifts_updCopier ..).trans (shifts_kickCopier _)

theorem shifts_listFirstNeedsCopy (w : Fin 16) (i : Fin 4) (pieces : List Piece) (s : State) :
    Shifts s (listFirstNeedsCopy w i pieces s) := by
  unfold listFirstNeedsCopy
  split
  · rfl
  · exact shifts_addUrgent _ s

theorem shifts_createJob (w : Fin 16) (i : Fin 4) (s : State) : Shifts s (createJob w i s) := by
  unfold createJob
  split
  · rfl
  · exact (shifts_updCopier ..).trans (shifts_kickCopier _)

theorem shifts_captureSlots (w : Fin 16) (pieces : List Piece) (s : State) : Shifts s (captureSlots w pieces s) := by
  refine Shifts.foldl _ (fun t p => ?_) pieces s
  split <;> rfl

theorem shifts_mapWaitingToSlot (m w : Fin 16) (i : Fin 4) (s : State) : Shifts s (mapWaitingToSlot m w i s) := by
  unfold mapWaitingToSlot
  split
  · extract_lets pieces t
    have mapped : Shifts s (stopTimer m t) := rfl
    exact mapped.trans ((shifts_captureSlots ..).trans (shifts_listFirstNeedsCopy ..))
  · rfl

theorem shifts_mapSlotWaits (w : Fin 16) (i : Fin 4) (s : State) : Shifts s (mapSlotWaits w i s) := by
  refine Shifts.forMasters _ (fun m t => ?_) s
  split
  · rfl
  split
  · exact shifts_mapWaitingToSlot ..
  · rfl

theorem shifts_allocateSlot (w : Fin 16) (d : Definition) (u : SlotUnit) (i : Fin 4) (s : State) :
    Shifts s (allocateSlot w d u i s) := by
  unfold allocateSlot
  extract_lets t v
  have opened : Shifts s t := rfl
  refine opened.trans (Shifts.trans ?_ (shifts_mapSlotWaits w i v))
  unfold v
  split
  · exact (shifts_updSlot ..).trans (shifts_createJob ..)
  · rfl

theorem shifts_allocate (w : Fin 16) (s : State) : Shifts s (allocate w s) := by
  unfold allocate
  split
  · rfl
  split
  · split
    · rfl
    split
    · rfl
    · exact shifts_allocateSlot ..
  · rfl

theorem shifts_retire (w : Fin 16) (i : Fin 4) (s : State) : Shifts s (retire w i s) := by
  unfold retire
  split
  · split
    · split
      · exact (shifts_updSlot ..).trans (shifts_allocate ..)
      · rfl
    · rfl
  · rfl

theorem shifts_freeRetiring (w : Fin 16) (i : Fin 4) (s : State) : Shifts s (freeRetiring w i s) := by
  unfold freeRetiring
  split
  · rfl
  split
  · exact (shifts_updSlot ..).trans (shifts_allocate ..)
  · rfl

theorem shifts_unpinSlot (w : Fin 16) (i : Fin 4) (s : State) : Shifts s (unpinSlot w i s) :=
  (shifts_updSlot ..).trans (shifts_retire ..)

theorem shifts_pinFront (w : Fin 16) (s : State) : Shifts s (pinFront w s) := by
  unfold pinFront
  split <;> rfl

theorem shifts_releaseVisibility (w : Fin 16) (s : State) : Shifts s (releaseVisibility w s) := by
  unfold releaseVisibility
  split
  · split
    · rfl
    · refine Shifts.forMasters _ (fun m t => ?_) s
      split
      · rfl
      split <;> rfl
  · rfl

theorem shifts_leaveSeeing (w : Fin 16) (s : State) : Shifts s (leaveSeeing w s) :=
  Shifts.trans (show Shifts s (s.updRoll w _) from rfl) (shifts_releaseVisibility ..)

theorem shifts_givePinUp (w : Fin 16) (held : ViewState) (s : State) : Shifts s (givePinUp w held s) := by
  unfold givePinUp
  split
  · exact shifts_unpinSlot ..
  · split
    · exact shifts_leaveSeeing ..
    · rfl
  · rfl

/-! ### A moved pin (R111, R112, R114) -/

/-- What the slot manager or the roll unit does where a view that held `held` is pinned to the front or the current
origin. -/
def repin (w : Fin 16) (held : ViewState) (s : State) : State :=
  match held with
  | .pinnedSlot p _ =>
    match s.slots[w] with
    | some u => if u.front = p then s else pinSlot w u.front (unpinSlot w p s)
    | none => s
  | .pinnedOrigin _ lag => if sees (s.definition w) lag then leaveSeeing w s else s
  | .unpinned => pinFront w s
  | .torn => pinFront w s

theorem movePin_eq {w : Fin 16} {c : Fin 8} {v : View} {s : State} (view : s.view w c = some v) :
    movePin w c s = repin w v.state (s.updView w c (fun v => { v with state := newPin w s })) := by
  unfold movePin
  rw [view]
  rfl

theorem repin_unseen {w : Fin 16} {x lag : Nat} {s : State} (unseen : sees (s.definition w) lag = false) :
    repin w (.pinnedOrigin x lag) s = s := by
  simp only [repin, unseen, Bool.false_eq_true, if_false]

theorem repin_seen {w : Fin 16} {x lag : Nat} {s : State} (seen : sees (s.definition w) lag = true) :
    repin w (.pinnedOrigin x lag) s = leaveSeeing w s := by
  simp only [repin, seen, if_true]

/-- An UNPINNED or TORN view of a rolling window holds nothing, and no pin is counted there. -/
theorem repin_free {w : Fin 16} {held : ViewState} {s : State} (free : held = .unpinned ∨ held = .torn)
    (slots : s.slots[w] = none) : repin w held s = s := by
  rcases free with rfl | rfl <;> simp only [repin, pinFront, slots]

theorem shifts_repin (w : Fin 16) (held : ViewState) (s : State) : Shifts s (repin w held s) := by
  unfold repin
  split
  · split
    · split
      · rfl
      · exact (shifts_unpinSlot ..).trans rfl
    · rfl
  · split
    · exact shifts_leaveSeeing ..
    · rfl
  · exact shifts_pinFront ..
  · exact shifts_pinFront ..

/-- A view's pin has moved: nothing of the view but its state. -/
theorem movePin_view {w : Fin 16} {c : Fin 8} {v : View} {s : State} (view : s.view w c = some v) :
    (movePin w c s).view w c = some { v with state := newPin w s } := by
  rw [movePin_eq view, (shifts_repin ..).view, State.updView_get, view]
  rfl

/-- A change of a view whose record is known is its replacement. -/
theorem State.updView_put {s : State} {w : Fin 16} {c : Fin 8} {v : View} (view : s.view w c = some v) (f : View → View) :
    s.updView w c f = s.updView w c (fun _ => f v) := State.updView_congr view rfl

theorem frameStart_eq {w : Fin 16} {c : Fin 8} {b : Binding} {v : View} {s : State} (bound : s.consumers[c] = some b)
    (view : s.view w c = some v) : frameStart w c s = (movePin w c s).updView w c (fun _ =>
      { state := newPin w s, frames := v.frames + 1, mark := none
        timer := if b.idle = 0 then v.timer else some s.timebase }) := by
  have frame : Shifts (s.updView w c (fun v => { v with state := newPin w s })) (movePin w c s) :=
    movePin_eq view ▸ shifts_repin ..
  rw [frameStart, restartIdle_eq (b := b) (frame.consumers ▸ bound), State.updView_updView,
    State.updView_put (movePin_view view)]
  exact congrArg _ (funext fun _ => by
    rw [show ((movePin w c s).updView w c (fun v => { v with frames := v.frames + 1, mark := none })).timebase =
      s.timebase from frame.timebase])

theorem latePin_eq {w : Fin 16} {c : Fin 8} {b : Binding} {v : View} {s : State} (bound : s.consumers[c] = some b)
    (view : s.view w c = some v) : latePin w c s = (movePin w c s).updView w c (fun _ =>
      { v with state := newPin w s, timer := if b.idle = 0 then v.timer else some s.timebase }) := by
  have frame : Shifts (s.updView w c (fun v => { v with state := newPin w s })) (movePin w c s) :=
    movePin_eq view ▸ shifts_repin ..
  rw [latePin, restartIdle_eq (b := b) (frame.consumers ▸ bound), State.updView_put (movePin_view view)]
  exact congrArg _ (funext fun _ => by rw [frame.timebase]; rfl)

/-! ### A consumer's read (R113 to R115) -/

/-- The condition of R113 under which a read starts a frame. -/
def View.starts (b : Binding) (first : Nat) (v : View) : Prop :=
  b.source = .firstBlock ∧ first = 0 ∧
    (v.state = .unpinned ∨ v.state = .torn ∨ v.mark.any (fun k => decide (0 < k)) = true)

theorem startsFrame_iff (b : Binding) (first : Nat) (v : View) : startsFrame b.source v first = true ↔ v.starts b first := by
  simp only [startsFrame, View.starts, Bool.and_eq_true, decide_eq_true_eq, and_assoc]
  refine and_congr_right (fun _ => and_congr_right (fun _ => ?_))
  cases v.state <;> simp

/-- The progress mark after a read (R113). -/
theorem View.raiseMark_eq (last : Nat) (v : View) : v.raiseMark last =
    { v with mark := if v.state ≠ .unpinned ∧ v.state ≠ .torn then some (max (v.mark.getD 0) last) else v.mark } := by
  obtain ⟨state, frames, mark, timer⟩ := v
  cases state <;> cases mark <;> simp [View.raiseMark]

theorem View.afterRead_starts {b : Binding} {pin : ViewState} {first last : Nat} {now : Micros} {v : View}
    (starts : v.starts b first) : v.afterRead b pin first last now = View.raiseMark last
      { state := pin, frames := v.frames + 1, mark := none, timer := if b.idle = 0 then v.timer else some now } := by
  have starts' := starts
  obtain ⟨source, first', held⟩ := starts
  simp only [View.afterRead, View.raiseMark_eq, source, first', held, and_self, true_and, true_or, if_true]

theorem View.afterRead_late {b : Binding} {pin : ViewState} {first last : Nat} {now : Micros} {v : View}
    (calm : ¬ v.starts b first) : v.afterRead b pin first last now =
      let x : View := { v with
        state := if v.state = .unpinned then pin else v.state
        timer := if b.idle = 0 then v.timer else some now }
      if b.source = .firstBlock then x.raiseMark last else x := by
  unfold View.starts at calm
  simp only [View.afterRead, View.raiseMark_eq, calm, false_or, if_false]
  by_cases source : b.source = .firstBlock <;> simp [source]

theorem movePin_shifts {w : Fin 16} {c : Fin 8} {v : View} {s : State} (view : s.view w c = some v) :
    Shifts (s.updView w c (fun v => { v with state := newPin w s })) (movePin w c s) := movePin_eq view ▸ shifts_repin ..

/-- The end of a consumer's read, its view being as a frame start, a late pin or nothing has left it. -/
theorem afterPin {w : Fin 16} {c : Fin 8} {b : Binding} {x : View} {t : State} {now : Micros}
    (bound : t.consumers[c] = some b) (clock : t.timebase = now)
    (last : Nat) (source : Prop) [Decidable source] :
    (if source then (restartIdle w c (t.updView w c (fun _ => x))).updView w c (View.raiseMark last)
      else restartIdle w c (t.updView w c (fun _ => x))) = t.updView w c (fun _ =>
        let y : View := { x with timer := if b.idle = 0 then x.timer else some now }
        if source then y.raiseMark last else y) := by
  have restarted : restartIdle w c (t.updView w c (fun _ => x)) =
      t.updView w c (fun _ => { x with timer := if b.idle = 0 then x.timer else some now }) := by
    rw [restartIdle_eq (s := t.updView w c (fun _ => x)) bound, State.updView_updView]
    exact congrArg _ (funext fun _ => by rw [← clock]; rfl)
  split
  · rw [restarted, State.updView_updView]
  · exact restarted

/-- A consumer's read that starts a frame (R113, R115). -/
theorem consumerRead_starts {w : Fin 16} {c : Fin 8} {b : Binding} {v : View} {s : State}
    (bound : s.consumers[c] = some b) (view : s.view w c = some v) {first : Nat} (starts : v.starts b first) (last : Nat) :
    consumerRead w c first last s =
      (movePin w c s).updView w c (fun _ => v.afterRead b (newPin w s) first last s.timebase) := by
  have frame := movePin_shifts view
  unfold consumerRead
  rw [bound, view]
  dsimp only
  rw [(startsFrame_iff b first v).mpr starts, if_pos rfl, frameStart_eq bound view,
    afterPin (now := s.timebase) (frame.consumers ▸ bound) frame.timebase, View.afterRead_starts starts]
  refine congrArg _ (funext fun _ => (if_pos starts.1).trans (congrArg (View.raiseMark last) ?_))
  by_cases idle : b.idle = 0 <;> simp [idle]

/-- The first read of an UNPINNED view that starts no frame (R114, R115). -/
theorem consumerRead_late {w : Fin 16} {c : Fin 8} {b : Binding} {v : View} {s : State} (bound : s.consumers[c] = some b)
    (view : s.view w c = some v) {first : Nat} (calm : ¬ v.starts b first) (unpinned : v.state = .unpinned) (last : Nat) :
    consumerRead w c first last s =
      (movePin w c s).updView w c (fun _ => v.afterRead b (newPin w s) first last s.timebase) := by
  have frame := movePin_shifts view
  unfold consumerRead
  rw [bound, view]
  dsimp only
  rw [Bool.eq_false_iff.mpr (fun h => calm ((startsFrame_iff b first v).mp h)), if_neg Bool.false_ne_true, if_pos unpinned,
    latePin_eq bound view, afterPin (now := s.timebase) (frame.consumers ▸ bound) frame.timebase,
    View.afterRead_late calm]
  refine congrArg _ (funext fun _ => ?_)
  by_cases idle : b.idle = 0 <;> simp [idle, unpinned]

/-- A read of a view that keeps its pin, or has lost it (R115). -/
theorem consumerRead_stays {w : Fin 16} {c : Fin 8} {b : Binding} {v : View} {s : State} (bound : s.consumers[c] = some b)
    (view : s.view w c = some v) {first : Nat} (calm : ¬ v.starts b first) (held : v.state ≠ .unpinned) (pin : ViewState)
    (last : Nat) : consumerRead w c first last s =
      s.updView w c (fun _ => v.afterRead b pin first last s.timebase) := by
  have same : s.updView w c (fun _ => v) = s := by
    rw [← State.updView_put view (fun v => v)]
    simp [State.updView, upd]
  unfold consumerRead
  rw [bound, view]
  dsimp only
  rw [Bool.eq_false_iff.mpr (fun h => calm ((startsFrame_iff b first v).mp h)), if_neg Bool.false_ne_true, if_neg held, View.afterRead_late calm]
  have ends := afterPin (w := w) (x := v) bound (rfl : s.timebase = s.timebase) last (b.source = .firstBlock)
  rw [same] at ends
  refine ends.trans (congrArg _ (funext fun _ => ?_))
  rw [if_neg held]

theorem View.afterRead_state (b : Binding) (pin : ViewState) (first last : Nat) (now : Micros) (v : View) :
    (v.starts b first → (v.afterRead b pin first last now).state = pin) ∧
    (v.state = .unpinned → (v.afterRead b pin first last now).state = pin) ∧
    (¬ v.starts b first → v.state ≠ .unpinned → (v.afterRead b pin first last now).state = v.state) :=
  ⟨fun h => if_pos (.inl h), fun h => if_pos (.inr h), fun h h' => if_neg (fun o => o.elim h h')⟩

theorem View.afterRead_frames (b : Binding) (pin : ViewState) (first last : Nat) (now : Micros) (v : View) :
    (v.afterRead b pin first last now).frames = v.frames ↔ ¬ v.starts b first := by
  refine ⟨fun same starts => ?_, fun calm => if_neg calm⟩
  have rises : (v.afterRead b pin first last now).frames = v.frames + 1 := if_pos starts
  have := congrArg BitVec.toNat (rises.symm.trans same)
  have unit : (1 : BitVec 16).toNat = 1 := rfl
  rw [BitVec.toNat_add, unit] at this
  omega

/-! ### A consumer's read of a rolling window (R92, R95) -/

/-- The read counts after pieces mapped with origin `x` are counted (R95). -/
def readsAfter (d : Definition) (x : Nat) (pieces : List Piece) (reads : List Nat) : List Nat :=
  pieces.foldl (fun reads p =>
    match d.ringPosition x p.unit with
    | none => reads
    | some q => reads.modify q (· + 1)) reads

theorem captureReads_eq {w : Fin 16} {d : Definition} {x : Nat} {u : RollState} {s : State} (rolls : s.rolls[w] = some u)
    (pieces : List Piece) : captureReads w (pieces.map (mapToLine d x true)) s =
      s.withRoll w { u with reads := readsAfter d x pieces u.reads } := by
  induction pieces generalizing s u with
  | nil =>
    simp only [captureReads, List.map_nil, List.foldl_nil, readsAfter, State.withRoll]
    have same : s.rolls.set w (some u) = s.rolls := by rw [← rolls]; simp
    rw [same]
  | cons p pieces ih =>
    cases position : d.ringPosition x p.unit with
    | none =>
      have first : captureReads w ((p :: pieces).map (mapToLine d x true)) s =
          captureReads w (pieces.map (mapToLine d x true)) s := by
        simp only [captureReads, List.map_cons, List.foldl_cons, mapToLine, if_true, position]
      rw [first, ih rolls]
      simp only [readsAfter, List.foldl_cons, position]
    | some q =>
      have first : captureReads w ((p :: pieces).map (mapToLine d x true)) s = captureReads w
          (pieces.map (mapToLine d x true)) (s.withRoll w { u with reads := u.reads.modify q (· + 1) }) := by
        rw [← State.updRoll_eq rolls (fun u => { u with reads := u.reads.modify q (· + 1) })]
        simp only [captureReads, List.map_cons, List.foldl_cons, mapToLine, if_true, position]
      rw [first, ih (State.withRoll_rolls ..)]
      simp only [readsAfter, List.foldl_cons, position, State.withRoll, Vector.set_set]

theorem popIntake_oneWaiting {s : State} (one : s.oneWaiting) (m : Fin 16) : (popIntake m s).oneWaiting := by
  simpa only [State.oneWaiting, popIntake_responses, popIntake_nextId] using one

theorem popIntake_leftSeeing (m w : Fin 16) (d : Definition) (u : RollState) (s : State) :
    popIntake m (s.leftSeeing w d u) = (popIntake m s).leftSeeing w d u := by
  cases waiting : s.onBus[m] <;>
    simp only [popIntake, show (s.leftSeeing w d u).onBus = s.onBus from rfl, waiting] <;> rfl

/-- A consumer's read of a rolling window, once the view unit has answered. -/
theorem mapRollingRead_consumer {m w : Fin 16} {d : Definition} {u u' : RollState} {r : Request} {c : Fin 8} {after : View}
    {x : Nat} {s t : State} (role : s.role d m = .consumer c)
    (answered : consumerRead w c (firstUnit d r) (lastUnit d r) s = t.updView w c (fun _ => after))
    (viewed : (t.view w c).isSome = true) (rolls : t.rolls[w] = some u')
    (origin : (match after.state with
      | .pinnedOrigin y _ => y
      | _ => u.origin) = x) : mapRollingRead m w d u r s =
      ((enterWaiting m r w .mapped ((cut d r).map (mapToLine d x true)) t).withRoll w
        { u' with reads := readsAfter d x (cut d r) u'.reads }).updView w c (fun _ => after) := by
  obtain ⟨v, view⟩ := Option.isSome_iff_exists.mp viewed
  have maps : consumerOrigin w c u.origin (t.updView w c (fun _ => after)) = x := by
    rw [consumerOrigin, State.updView_get, view, ← origin]
    obtain ⟨state, _, _, _⟩ := after
    cases state <;> rfl
  simp only [mapRollingRead, role, answered, maps]
  exact captureReads_eq (s := enterWaiting m r w .mapped _ (t.updView w c (fun _ => after))) rolls (cut d r)

end Sys2Proof.Machine

namespace Sys2Proof
open Machine

/-- Settles O16: a consumer's view moves by `consumerRead_eq`, and what it then shows is the origin. -/
theorem rollingReadMapped : Obligations.RollingReadMapped := by
  intro m r w d u s head open_window read slots rolls counted
  have ⟨_, _, _, _, _, definition⟩ := head
  rw [classification_rollingRead head open_window read slots rolls]
  have bystander (origin : Nat) : captureReads w ((cut d r).map (mapToLine d origin true))
      (s.admitted m r w .mapped ((cut d r).map (mapToLine d origin true)) false) = counted s u.seeing origin := by
    refine (captureReads_eq (u := u) ?_ (cut d r)).trans ?_
    · rw [State.admitted_rolls]; exact rolls
    · simp only [State.withRoll, State.admitted_rolls]
      rfl
  refine ⟨fun role => congrArg _ ?_, fun role => congrArg _ ?_, fun c b v role bound view => ?_⟩
  · simp only [mapRollingRead, popIntake_role, role]
    rw [enterWaiting_popIntake]
    exact bystander u.origin
  · simp only [mapRollingRead, popIntake_role, role]
    exact enterWaiting_popIntake ..
  · have role' : (popIntake m s).role d m = .consumer c := by rw [popIntake_role]; exact role
    have bound' : (popIntake m s).consumers[c] = some b := by rw [popIntake_consumers]; exact bound
    have view' : (popIntake m s).view w c = some v := by rw [popIntake_view]; exact view
    have rolls' : (popIntake m s).rolls[w] = some u := by rw [popIntake_rolls]; exact rolls
    have definition' : (popIntake m s).definition w = some d := by rw [popIntake_definition]; exact definition
    have pin : newPin w (popIntake m s) = .pinnedOrigin u.origin 0 := by
      simp only [newPin, popIntake_slots, slots, popIntake_rolls, rolls]
    have clock : (popIntake m s).timebase = s.timebase := popIntake_timebase ..
    intro after
    obtain ⟨starting, opening, staying⟩ :=
      v.afterRead_state b (.pinnedOrigin u.origin 0) (firstUnit d r) (lastUnit d r) s.timebase
    have frames : after.frames = v.frames ↔ ¬ v.starts b (firstUnit d r) := v.afterRead_frames ..
    have plain (t : State) (k x : Nat) :
        (enterWaiting m r w .mapped ((cut d r).map (mapToLine d x true)) (popIntake m t)).withRoll w
          { u with seeing := k, reads := readsAfter d x (cut d r) u.reads } = counted t k x := by
      rw [enterWaiting_popIntake, State.withRoll, State.admitted_rolls]
      rfl
    have moved (t : State) (k x : Nat) (f : View → View) :
        ((enterWaiting m r w .mapped ((cut d r).map (mapToLine d x true)) ((popIntake m t).updView w c f)).withRoll w
          { u with seeing := k, reads := readsAfter d x (cut d r) u.reads }).updView w c (fun _ => after) =
        (counted t k x).updView w c (fun _ => after) := by
      rw [← plain t k x]
      exact State.updView_updView (s := (enterWaiting m r w .mapped _ (popIntake m t)).withRoll w _) ..
    have pinned (x lag : Nat) (is : after.state = .pinnedOrigin x lag) : (match after.state with
        | .pinnedOrigin y _ => y
        | _ => u.origin) = x := by rw [is]
    have viewed (f : View → View) : (((popIntake m s).updView w c f).view w c).isSome = true := by
      rw [State.updView_get, view']
      rfl
    /- The read of a view whose pin stays, and of one whose pin moves with nothing given up. -/
    have stays (calm : ¬ v.starts b (firstUnit d r)) (held : v.state ≠ .unpinned) (x : Nat)
        (origin : (match after.state with
          | .pinnedOrigin y _ => y
          | _ => u.origin) = x) :
        mapRollingRead m w d u r (popIntake m s) = (counted s u.seeing x).updView w c (fun _ => after) := by
      have answered := consumerRead_stays bound' view' calm held (.pinnedOrigin u.origin 0) (lastUnit d r)
      rw [clock] at answered
      rw [mapRollingRead_consumer (after := after) role' answered (by rw [view']; rfl) rolls' origin]
      exact congrArg (fun t => State.updView t w c (fun _ => after)) (plain s u.seeing x)
    have moves (answered : consumerRead w c (firstUnit d r) (lastUnit d r) (popIntake m s) =
        ((popIntake m s).updView w c (fun v => { v with state := newPin w (popIntake m s) })).updView w c
          (fun _ => after)) (is : after.state = .pinnedOrigin u.origin 0) :
        mapRollingRead m w d u r (popIntake m s) = (counted s u.seeing u.origin).updView w c (fun _ => after) := by
      rw [mapRollingRead_consumer (after := after) role' answered (viewed _) rolls' (pinned _ _ is)]
      exact moved s u.seeing u.origin _
    refine ⟨fun x lag held => ⟨fun same => congrArg _ ?_, fun starts unseen => congrArg _ ?_,
      fun starts seen one => congrArg _ ?_⟩, fun held => congrArg _ ?_⟩
    · have calm := frames.mp same
      exact stays calm (by rw [held]; nofun) x (pinned x lag ((staying calm (by rw [held]; nofun)).trans held))
    · have starts' := not_not.mp (fun calm => starts (frames.mpr calm))
      refine moves ?_ (starting starts')
      rw [consumerRead_starts bound' view' starts', movePin_eq view', held, repin_unseen, pin, clock]
      exact (congrArg (fun d => sees d lag) definition').trans (decide_eq_false (Nat.not_le.mpr unseen))
    · have starts' := not_not.mp (fun calm => starts (frames.mpr calm))
      have left : repin w (.pinnedOrigin x lag) ((popIntake m s).updView w c (fun v =>
            { v with state := newPin w (popIntake m s) })) =
          (popIntake m (s.leftSeeing w d u)).updView w c (fun v => { v with state := newPin w (popIntake m s) }) := by
        rw [repin_seen (s := (popIntake m s).updView ..) ((congrArg (fun d => sees d lag) definition').trans (decide_eq_true seen)),
          leaveSeeing_eq (s := (popIntake m s).updView ..) (popIntake_oneWaiting one m) definition' rolls',
          popIntake_leftSeeing]
        rfl
      have answered := consumerRead_starts bound' view' starts' (lastUnit d r)
      rw [movePin_eq view', held, left, clock, pin] at answered
      have rolls'' : (popIntake m (s.leftSeeing w d u)).rolls[w] = some { u with seeing := u.seeing - 1 } := by
        rw [popIntake_rolls]
        exact Vector.getElem_set_self ..
      rw [mapRollingRead_consumer (after := after) role' answered ?_ rolls'' (pinned _ _ (starting starts'))]
      · exact moved (s.leftSeeing w d u) (u.seeing - 1) u.origin _
      · rw [State.updView_get, popIntake_view]
        show ((s.view w c).map _).isSome = true
        rw [view]
        rfl
    · have free := repin_free (s := (popIntake m s).updView w c (fun v => { v with state := newPin w (popIntake m s) }))
        held (show (popIntake m s).slots[w] = none by rw [popIntake_slots]; exact slots)
      by_cases starts : v.starts b (firstUnit d r)
      · refine moves ?_ (starting starts)
        rw [consumerRead_starts bound' view' starts, movePin_eq view', free, pin, clock]
      · by_cases unpinned : v.state = .unpinned
        · refine moves ?_ (opening unpinned)
          rw [consumerRead_late bound' view' starts unpinned, movePin_eq view', free, pin, clock]
        · refine stays starts unpinned u.origin ?_
          rw [show after.state = .torn from (staying starts unpinned).trans (held.resolve_left unpinned)]

end Sys2Proof
end


section
/-! SUPPORT. What the copier's choices change (R75, R76): blocks of a map with a backfill source begin to be copied, and
nothing else of any slot. -/

namespace Sys2Proof.Machine

/-! ### Maps -/

/-- From `k` to `k'` only blocks of a map with a backfill source became COPYING. -/
structure Work.Copies (k k' : Work) : Prop where
  written : k'.written = k.written
  source  : k'.source = k.source
  length  : k'.map.length = k.map.length
  blocks  : ∀ b : Nat, k'.map[b]? = k.map[b]? ∨ (k.source ≠ none ∧ k'.map[b]? = some .copying)

theorem Work.Copies.refl (k : Work) : k.Copies k := ⟨rfl, rfl, rfl, fun _ => .inl rfl⟩

theorem Work.Copies.trans {k l n : Work} (a : k.Copies l) (b : l.Copies n) : k.Copies n := by
  refine ⟨b.written.trans a.written, b.source.trans a.source, b.length.trans a.length, fun i => ?_⟩
  rcases b.blocks i with same | ⟨source, copying⟩
  · rw [same]
    exact a.blocks i
  · exact .inr ⟨a.source ▸ source, copying⟩

theorem Work.copies_set {k : Work} (source : k.source ≠ none) (b : Nat) :
    k.Copies { k with map := k.map.set b .copying } := by
  refine ⟨rfl, rfl, List.length_set, fun i => ?_⟩
  rw [List.getElem?_set]
  by_cases same : b = i
  · subst same
    by_cases inside : b < k.map.length
    · rw [if_pos rfl, if_pos inside]
      exact .inr ⟨source, rfl⟩
    · rw [if_pos rfl, if_neg inside]
      exact .inl (List.getElem?_eq_none (Nat.not_lt.mp inside)).symm
  · rw [if_neg same]
    exact .inl rfl

/-! ### Slots -/

/-- From `x` to `x'` at most the slot's map changed, as copies do. -/
def Slot.Copies (x x' : Slot) : Prop := ∃ f : Work → Work, (∀ k, x.work = some k → k.Copies (f k)) ∧ x' = x.updWork f

theorem Slot.work_updWork (f : Work → Work) (x : Slot) : (x.updWork f).work = x.work.map f := by
  obtain ⟨state, _, _, _, _⟩ := x
  cases state <;> rfl

theorem Slot.updWork_updWork (f g : Work → Work) (x : Slot) : (x.updWork f).updWork g = x.updWork (fun k => g (f k)) := by
  obtain ⟨state, _, _, _, _⟩ := x
  cases state <;> rfl

theorem Slot.updWork_id (x : Slot) : x.updWork id = x := by
  obtain ⟨state, _, _, _, _⟩ := x
  cases state <;> rfl

/-- A slot without a map is as it was. -/
theorem Slot.updWork_none {x : Slot} (none : x.work = none) (f : Work → Work) : x.updWork f = x := by
  obtain ⟨state, _, _, _, _⟩ := x
  cases state <;> cases none <;> rfl

theorem Slot.Copies.refl (x : Slot) : x.Copies x := ⟨id, fun k _ => .refl k, x.updWork_id.symm⟩

theorem Slot.Copies.trans {x y z : Slot} (a : x.Copies y) (b : y.Copies z) : x.Copies z := by
  obtain ⟨f, copies, rfl⟩ := a
  obtain ⟨g, copies', rfl⟩ := b
  refine ⟨fun k => g (f k), fun k is => (copies k is).trans (copies' _ ?_), Slot.updWork_updWork ..⟩
  rw [Slot.work_updWork, is]
  rfl

namespace Slot.Copies

theorem counts {x x' : Slot} (h : x.Copies x') :
    x'.pins = x.pins ∧ x'.inFlight = x.inFlight ∧ x'.waiting = x.waiting ∧ x'.hold = x.hold := by
  obtain ⟨f, -, rfl⟩ := h
  obtain ⟨state, _, _, _, _⟩ := x
  cases state <;> exact ⟨rfl, rfl, rfl, rfl⟩

theorem filling {x x' : Slot} {k : Work} (h : x.Copies x') (is : x.state = .filling k) :
    ∃ k', x'.state = .filling k' ∧ k.Copies k' := by
  obtain ⟨f, copies, rfl⟩ := h
  obtain ⟨state, _, _, _, _⟩ := x
  obtain rfl : state = .filling k := is
  exact ⟨f k, rfl, copies k rfl⟩

theorem sealed {x x' : Slot} {k : Work} {tag : BitVec 16} (h : x.Copies x') (is : x.state = .sealed k tag) :
    ∃ k', x'.state = .sealed k' tag ∧ k.Copies k' := by
  obtain ⟨f, copies, rfl⟩ := h
  obtain ⟨state, _, _, _, _⟩ := x
  obtain rfl : state = .sealed k tag := is
  exact ⟨f k, rfl, copies k rfl⟩

theorem same {x x' : Slot} (h : x.Copies x') (none : x.work = none) : x' = x := by
  obtain ⟨f, -, rfl⟩ := h
  exact Slot.updWork_none none f

end Slot.Copies

/-- From `u` to `u'` at most maps of slots changed, as copies do. -/
structure SlotUnit.Copies (u u' : SlotUnit) : Prop where
  rest  : u' = { u with slots := u'.slots }
  slots : ∀ j : Fin 4, Option.Rel Slot.Copies u.slots[j] u'.slots[j]

theorem rel_refl {α : Type} {r : α → α → Prop} (refl : ∀ x, r x x) (o : Option α) : Option.Rel r o o := by
  cases o with
  | none => exact .none
  | some x => exact .some (refl x)

theorem rel_trans {α : Type} {r : α → α → Prop} (trans : ∀ x y z, r x y → r y z → r x z) {a b c : Option α}
    (h : Option.Rel r a b) (h' : Option.Rel r b c) : Option.Rel r a c := by
  cases h with
  | none => cases h'; exact .none
  | some h => cases h' with | some h' => exact .some (trans _ _ _ h h')

theorem rel_some {α : Type} {r : α → α → Prop} {o : Option α} {x : α} (h : Option.Rel r (some x) o) :
    ∃ y, o = some y ∧ r x y := by
  cases h with | some h => exact ⟨_, rfl, h⟩

theorem SlotUnit.Copies.refl (u : SlotUnit) : u.Copies u := ⟨rfl, fun _ => rel_refl Slot.Copies.refl _⟩

theorem SlotUnit.Copies.trans {u v z : SlotUnit} (a : u.Copies v) (b : v.Copies z) : u.Copies z :=
  ⟨b.rest.trans (by rw [a.rest]), fun j => rel_trans (r := Slot.Copies) (fun _ _ _ => Slot.Copies.trans) (a.slots j) (b.slots j)⟩

namespace SlotUnit.Copies

theorem filling {u u' : SlotUnit} (h : u.Copies u') : u'.filling = u.filling := by rw [h.rest]
theorem sealed {u u' : SlotUnit} (h : u.Copies u') : u'.sealed = u.sealed := by rw [h.rest]
theorem front {u u' : SlotUnit} (h : u.Copies u') : u'.front = u.front := by rw [h.rest]
theorem counter {u u' : SlotUnit} (h : u.Copies u') : u'.counter = u.counter := by rw [h.rest]

theorem slot {u u' : SlotUnit} (h : u.Copies u') {j : Fin 4} {x : Slot} (is : u.slots[j] = some x) :
    ∃ x', u'.slots[j] = some x' ∧ x.Copies x' := rel_some (is ▸ h.slots j)

end SlotUnit.Copies

/-! ### The copier's choices -/

/-- From `s` to `t` the copier may have changed, and blocks of maps may have begun to be copied. -/
structure Chooses (s t : State) : Prop where
  frame : t = { s with slots := t.slots, copier := t.copier }
  slots : ∀ v : Fin 16, Option.Rel SlotUnit.Copies s.slots[v] t.slots[v]

theorem Chooses.refl (s : State) : Chooses s s := ⟨rfl, fun _ => rel_refl SlotUnit.Copies.refl _⟩

theorem Chooses.trans {s t u : State} (a : Chooses s t) (b : Chooses t u) : Chooses s u :=
  ⟨by rw [b.frame, a.frame], fun v => rel_trans (r := SlotUnit.Copies) (fun _ _ _ => SlotUnit.Copies.trans) (a.slots v) (b.slots v)⟩

theorem Chooses.copier (s : State) (f : Copier → Copier) : Chooses s (s.updCopier f) :=
  ⟨rfl, fun _ => rel_refl SlotUnit.Copies.refl _⟩

namespace Chooses

theorem unit {s t : State} (h : Chooses s t) {v : Fin 16} {u : SlotUnit} (is : s.slots[v] = some u) :
    ∃ u', t.slots[v] = some u' ∧ u.Copies u' := rel_some (is ▸ h.slots v)

theorem responses {s t : State} (h : Chooses s t) : t.responses = s.responses := by rw [h.frame]
theorem stallTimers {s t : State} (h : Chooses s t) : t.stallTimers = s.stallTimers := by rw [h.frame]
theorem nextId {s t : State} (h : Chooses s t) : t.nextId = s.nextId := by rw [h.frame]
theorem current {s t : State} (h : Chooses s t) (m : Fin 16) : t.current m = s.current m := by
  rw [State.current, h.responses]; rfl

end Chooses

theorem chooses_startCopy (w : Fin 16) (i : Fin 4) (b : Nat) (s : State) : Chooses s (startCopy w i b s) := by
  unfold startCopy
  split
  · exact .refl s
  · next f source =>
    refine ⟨rfl, fun v => ?_⟩
    show Option.Rel SlotUnit.Copies s.slots[v] (upd s.slots w (Option.map _))[v]
    rw [upd_get]
    split
    · next same =>
      subst same
      cases slots : s.slots[w] with
      | none => exact .none
      | some u =>
        refine .some ⟨rfl, fun j => ?_⟩
        rw [upd_get]
        split
        · next same =>
          subst same
          cases slot : u.slots[i] with
          | none => exact .none
          | some x =>
            refine .some ⟨_, fun k is => Work.copies_set (fun none => ?_) b, rfl⟩
            simp only [State.work, State.slot, slots, slot, Option.bind_some, is, none] at source
            cases source
        · exact rel_refl Slot.Copies.refl _
    · exact rel_refl SlotUnit.Copies.refl _

theorem chooses_kickCopier (s : State) : Chooses s (kickCopier s) := by
  unfold kickCopier
  split
  · exact .refl s
  split
  · exact .refl s
  split
  · exact (Chooses.copier s _).trans (chooses_startCopy ..)
  split
  · exact .refl s
  split
  · exact .refl s
  split
  · exact .refl s
  · exact (Chooses.copier s _).trans (chooses_startCopy ..)

theorem chooses_addUrgent (u : Urgent) (s : State) : Chooses s (addUrgent u s) := by
  unfold addUrgent
  split
  · exact .refl s
  · exact (Chooses.copier s _).trans (chooses_kickCopier _)

theorem chooses_listFirstNeedsCopy (w : Fin 16) (i : Fin 4) (pieces : List Piece) (s : State) :
    Chooses s (listFirstNeedsCopy w i pieces s) := by
  unfold listFirstNeedsCopy
  split
  · exact .refl s
  · exact chooses_addUrgent _ s

theorem chooses_createJob (w : Fin 16) (i : Fin 4) (s : State) : Chooses s (createJob w i s) := by
  unfold createJob
  split
  · exact .refl s
  · exact (Chooses.copier s _).trans (chooses_kickCopier _)

theorem startCopy_jobs (w : Fin 16) (i : Fin 4) (b : Nat) (s : State) :
    (startCopy w i b s).copier.jobs = s.copier.jobs := by
  unfold startCopy
  split <;> rfl

theorem kickCopier_jobs (s : State) : (kickCopier s).copier.jobs = s.copier.jobs := by
  unfold kickCopier
  split
  · rfl
  split
  · rfl
  split
  · exact startCopy_jobs ..
  split
  · rfl
  split
  · rfl
  split
  · rfl
  · exact startCopy_jobs ..

theorem addUrgent_jobs (u : Urgent) (s : State) : (addUrgent u s).copier.jobs = s.copier.jobs := by
  unfold addUrgent
  split
  · rfl
  · exact kickCopier_jobs _

theorem listFirstNeedsCopy_jobs (w : Fin 16) (i : Fin 4) (pieces : List Piece) (s : State) :
    (listFirstNeedsCopy w i pieces s).copier.jobs = s.copier.jobs := by
  unfold listFirstNeedsCopy
  split
  · rfl
  · exact addUrgent_jobs _ s

end Sys2Proof.Machine
end


section
/-! SUPPORT. What an allocation of a slot does (R46, R47): the slot opens with a fresh block map, and each write in a slot
wait is mapped to it. -/

namespace Sys2Proof.Machine

/-! ### Fresh maps (R71) -/

/-- A block map as an allocation makes it, some of its copies perhaps begun. -/
structure Work.Fresh (d : Definition) (front : Fin 4) (k : Work) : Prop where
  written : k.written = 0
  length  : k.map.length = d.units
  source  : k.source = if d.isBackfill = true then some front else none
  blocks  : ∀ b < d.units, (k.map.getD b .notWritten).uncopied = d.isBackfill

theorem newWork_fresh (d : Definition) (front : Fin 4) : (newWork d front).Fresh d front := by
  unfold newWork
  cases backfill : d.isBackfill with
  | false =>
    refine ⟨rfl, List.length_replicate, by rw [backfill]; rfl, fun b inside => ?_⟩
    rw [backfill, if_neg Bool.false_ne_true, List.getD_replicate _ inside]
    rfl
  | true =>
    refine ⟨rfl, List.length_replicate, by rw [backfill]; rfl, fun b inside => ?_⟩
    rw [backfill, if_pos rfl, List.getD_replicate _ inside]
    rfl

theorem Work.Fresh.copies {d : Definition} {front : Fin 4} {k k' : Work} (h : k.Fresh d front) (copies : k.Copies k') :
    k'.Fresh d front := by
  refine ⟨copies.written.trans h.written, copies.length.trans h.length, copies.source.trans h.source, fun b inside => ?_⟩
  rw [List.getD_eq_getElem?_getD]
  rcases copies.blocks b with same | ⟨source, copying⟩
  · rw [same, ← List.getD_eq_getElem?_getD]
    exact h.blocks b inside
  · have backfill : d.isBackfill = true := by
      by_contra plain
      exact source (h.source.trans (if_neg plain))
    rw [copying, backfill]
    rfl

/-- The pieces of a write mapped to a newly opened slot (R47, R51). -/
theorem Work.Fresh.pieces {d : Definition} {front : Fin 4} {k : Work} (h : k.Fresh d front) (i : Fin 4) (r : Request) :
    (cut d r).map (mapWritePiece d k i) = freshPieces d i r := by
  refine List.map_congr_left (fun p _ => ?_)
  have uncopied : (k.map.getD p.unit .notWritten).uncopied = decide (d.isBackfill = true ∧ p.unit < d.units) := by
    by_cases inside : p.unit < d.units
    · rw [h.blocks _ inside]
      simp [inside]
    · rw [List.getD_eq_default _ _ (by rw [h.length]; exact Nat.not_lt.mp inside)]
      simp [inside, BlockState.uncopied]
  simp only [mapWritePiece, uncopied, decide_eq_true_eq]

/-! ### Slot waits (R47, R65) -/

/-- A write in a slot wait, mapped to the newly opened slot `i`. -/
def Entry.filled (d : Definition) (i : Fin 4) (e : Entry) : Entry :=
  { e with stage := .waiting .mapped, pieces := freshPieces d i e.request, closing := closesSlotted d e.request }

theorem Entry.awaitsSlot_iff {w : Fin 16} {e : Entry} : e.awaitsSlot w = true ↔ e.window = some w ∧ e.inSlotWait = true := by
  simp [Entry.awaitsSlot]

theorem Entry.isWaiting_of_inSlotWait {e : Entry} (h : e.inSlotWait = true) : e.isWaiting = true := by
  simp only [Entry.inSlotWait, Bool.or_eq_true, decide_eq_true_eq] at h
  rcases h with h | h <;> rw [Entry.isWaiting, h]

theorem Entry.isWaiting_of_awaitsSlot {w : Fin 16} {e : Entry} (h : e.awaitsSlot w = true) : e.isWaiting = true :=
  Entry.isWaiting_of_inSlotWait (Entry.awaitsSlot_iff.mp h).2

/-- The pieces that a master's slot wait for window `w` brings to the slot. -/
def State.slotPieces (s : State) (w : Fin 16) (d : Definition) (m : Fin 16) : Nat :=
  match s.current m with
  | some e => if e.awaitsSlot w = true then (cut d e.request).length else 0
  | none => 0

theorem captureSlots_fresh (w : Fin 16) (d : Definition) (i : Fin 4) (r : Request) (s : State) :
    captureSlots w (freshPieces d i r) s =
      s.onSlots w (fun u => u.onSlot i (Slot.expect (cut d r).length)) := by
  rcases cut_cases d r with ⟨p, h⟩ | ⟨p, q, h⟩ <;> rw [freshPieces, h]
  · rfl
  · simp [captureSlots, mapToSlot, State.updSlot_onSlots, State.onSlots_onSlots, SlotUnit.onSlot_onSlot, Nat.add_assoc]
    rfl

theorem State.onSlots_eq {s : State} {w : Fin 16} {u : SlotUnit} (slots : s.slots[w] = some u) (f : SlotUnit → SlotUnit) :
    s.onSlots w f = s.withSlots w (f u) := by
  simp [State.onSlots, State.withSlots, show s.slots[w.val] = some u from slots]

/-- Two changes of the current request that agree on it are one. -/
theorem State.oneWaiting.updEntry_congr {s : State} (one : s.oneWaiting) {m : Fin 16} {e : Entry}
    (current : s.current m = some e) {f g : Entry → Entry} (same : f e = g e) :
    s.updEntry m e.id f = s.updEntry m e.id g := by
  have list : s.responses[m].map (fun x => if x.id = e.id then f x else x) =
      s.responses[m].map (fun x => if x.id = e.id then g x else x) := by
    refine List.map_congr_left (fun x listed => ?_)
    split
    · next number => rw [one.of_id current listed number, same]
    · rfl
  rw [State.updEntry, State.updEntry, upd, upd, list]

/-- One write in a slot wait is mapped to the newly opened slot. -/
theorem mapWaitingToSlot_fresh {m w : Fin 16} {i : Fin 4} {d : Definition} {front : Fin 4} {e : Entry} {u : SlotUnit}
    {x : Slot} {k : Work} {s : State} (one : s.oneWaiting) (current : s.current m = some e) (definition : s.definition w = some d)
    (slots : s.slots[w] = some u) (slot : u.slots[i] = some x) (filling : x.state = .filling k) (fresh : k.Fresh d front) :
    Chooses ((stopTimer m (s.updEntry m e.id (Entry.filled d i))).withSlots w
      (u.onSlot i (Slot.expect (cut d e.request).length))) (mapWaitingToSlot m w i s) ∧
    (mapWaitingToSlot m w i s).copier.jobs = s.copier.jobs := by
  have work : s.work w i = some k := by
    simp only [State.work, State.slot_of slots, slot, Option.bind_some, Slot.work, filling]
  have mapped : s.updEntry m e.id (fun x => { x with
      stage := .waiting .mapped, pieces := freshPieces d i e.request, closing := closesSlotted d e.request }) =
      s.updEntry m e.id (Entry.filled d i) := one.updEntry_congr current rfl
  have is : mapWaitingToSlot m w i s = listFirstNeedsCopy w i (freshPieces d i e.request)
      ((stopTimer m (s.updEntry m e.id (Entry.filled d i))).withSlots w
        (u.onSlot i (Slot.expect (cut d e.request).length))) := by
    unfold mapWaitingToSlot
    rw [current, definition, work]
    dsimp only
    rw [fresh.pieces, mapped, captureSlots_fresh]
    exact congrArg (listFirstNeedsCopy w i _) (State.onSlots_eq (s := stopTimer m (s.updEntry m e.id _)) slots _)
  rw [is]
  exact ⟨chooses_listFirstNeedsCopy .., listFirstNeedsCopy_jobs ..⟩

/-- What the mapping of the slot waits of the masters in `done` to slot `i` makes of a state whose slots are `u`. -/
structure Fills (w : Fin 16) (i : Fin 4) (d : Definition) (u : SlotUnit) (done : List (Fin 16)) (s t : State) : Prop where
  one   : t.oneWaiting
  frame : t = { s with responses := t.responses, stallTimers := t.stallTimers, slots := t.slots, copier := t.copier }
  jobs  : t.copier.jobs = s.copier.jobs
  unit  : ∃ u', t.slots[w] = some u' ∧
    (u.onSlot i (Slot.expect ((done.map (s.slotPieces w d)).sum))).Copies u'
  cells : ∀ m : Fin 16,
    t.responses[m] = (if m ∈ done then s.responses[m].map (fun e => if e.awaitsSlot w = true then e.filled d i else e)
      else s.responses[m]) ∧
    t.stallTimers[m] = if m ∈ done ∧ s.responses[m].any (Entry.awaitsSlot w) = true then none else s.stallTimers[m]

theorem SlotUnit.Copies.onSlot_expect {u u' : SlotUnit} (h : u.Copies u') (i : Fin 4) (n : Nat) :
    (u.onSlot i (Slot.expect n)).Copies (u'.onSlot i (Slot.expect n)) := by
  refine ⟨?_, fun j => ?_⟩
  · rw [h.rest]
    rfl
  · rw [SlotUnit.onSlot_get, SlotUnit.onSlot_get]
    have rel := h.slots j
    by_cases same : j = i
    · rw [if_pos same, if_pos same]
      cases slot : u.slots[j] with
      | none =>
        rw [slot] at rel
        cases slot' : u'.slots[j] with
        | none => exact .none
        | some x => rw [slot'] at rel; cases rel
      | some x =>
        obtain ⟨x', slot', f, copies, rfl⟩ := h.slot slot
        rw [slot']
        refine .some ⟨f, copies, ?_⟩
        obtain ⟨state, _, _, _, _⟩ := x
        cases state <;> rfl
    · rw [if_neg same, if_neg same]
      exact rel

/-- The turn of one master in the mapping of slot waits. -/
theorem Fills.next {w : Fin 16} {i : Fin 4} {d : Definition} {front : Fin 4} {u : SlotUnit} {x : Slot} {k : Work}
    {done : List (Fin 16)} {m : Fin 16} {s t : State} (one : s.oneWaiting) (definition : s.definition w = some d)
    (slot : u.slots[i] = some x) (filling : x.state = .filling k) (fresh : k.Fresh d front) (turn : m ∉ done)
    (h : Fills w i d u done s t) : Fills w i d u (done ++ [m]) s (match t.current m with
      | none => t
      | some e => if e.window = some w ∧ e.inSlotWait = true then mapWaitingToSlot m w i t else t) := by
  obtain ⟨one', frame, jobs, ⟨u', slots', copies⟩, cells⟩ := h
  have list : t.responses[m] = s.responses[m] := (cells m).1.trans (if_neg turn)
  have timer : t.stallTimers[m] = s.stallTimers[m] := (cells m).2.trans (if_neg (fun h => turn h.1))
  have current : t.current m = s.current m := congrArg (List.find? Entry.isWaiting) list
  have awaiting (x : Entry) (h : x.awaitsSlot w = true) : x.isWaiting = true := Entry.isWaiting_of_awaitsSlot h
  /- A master whose current request is in no such wait leaves everything as it is. -/
  have idle (fails : ∀ e, s.current m = some e → e.awaitsSlot w = false) : Fills w i d u (done ++ [m]) s t := by
    have none_passes := one.none_passes awaiting fails
    have uncounted : s.slotPieces w d m = 0 := by
      unfold State.slotPieces
      split
      · next e is => rw [fails e is, if_neg Bool.false_ne_true]
      · rfl
    have same : s.responses[m].map (fun e => if e.awaitsSlot w = true then e.filled d i else e) = s.responses[m] :=
      (List.map_congr_left (fun x listed => if_neg (by rw [none_passes x listed]; exact Bool.false_ne_true))).trans
        (List.map_id _)
    have quiet : s.responses[m].any (Entry.awaitsSlot w) = false :=
      List.any_eq_false.mpr (fun x listed => by rw [none_passes x listed]; exact Bool.false_ne_true)
    refine ⟨one', frame, jobs, ⟨u', slots', by simpa [uncounted] using copies⟩, fun n => ?_⟩
    by_cases same_master : n = m
    · subst same_master
      rw [if_pos (by simp), same, quiet, if_neg (fun h => nomatch h.2)]
      exact ⟨list, timer⟩
    · simpa [same_master] using cells n
  rw [current]
  cases is : s.current m with
  | none => exact idle (fun e h => nomatch is.symm.trans h)
  | some e =>
    dsimp only
    split
    · next waits =>
      have passes : e.awaitsSlot w = true := Entry.awaitsSlot_iff.mpr waits
      have some_passes : s.responses[m].any (Entry.awaitsSlot w) = true :=
        List.any_eq_true.mpr ⟨e, (State.current_eq_some is).1, passes⟩
      have counted : s.slotPieces w d m = (cut d e.request).length := by
        simp only [State.slotPieces, is, passes, if_true]
      have opened : (u.onSlot i (Slot.expect (done.map (s.slotPieces w d)).sum)).slots[i] =
          some (x.expect (done.map (s.slotPieces w d)).sum) := by
        rw [SlotUnit.onSlot_get, if_pos rfl, slot]
        rfl
      obtain ⟨x', slot', copies_x⟩ := copies.slot opened
      obtain ⟨k', filling', copies_k⟩ := copies_x.filling (k := k) filling
      have definition' : t.definition w = some d := by rw [frame]; exact definition
      obtain ⟨chooses, kept⟩ := mapWaitingToSlot_fresh one' (current.trans is) definition' slots' slot' filling'
        (fresh.copies copies_k)
      obtain ⟨u'', slots'', copies'⟩ := chooses.unit (State.withSlots_slots ..)
      refine ⟨one'.works (works_mapWaitingToSlot ..), ?_, kept.trans jobs, ⟨u'', slots'', ?_⟩, fun n => ?_⟩
      · rw [chooses.frame, frame]
        rfl
      · rw [List.map_append, List.sum_append, List.map_singleton, List.sum_singleton, counted,
          ← SlotUnit.onSlot_expect_expect]
        exact (copies.onSlot_expect i _).trans copies'
      · rw [chooses.responses, chooses.stallTimers]
        by_cases same_master : n = m
        · subst same_master
          have lists : (t.updEntry n e.id (Entry.filled d i)).responses[n] =
              s.responses[n].map (fun e => if e.awaitsSlot w = true then e.filled d i else e) := by
            rw [State.updEntry_responses, upd_same, one'.map_current (current.trans is) awaiting passes, list]
          rw [if_pos (by simp), some_passes, if_pos ⟨by simp, rfl⟩]
          exact ⟨lists, upd_same ..⟩
        · have apart : m ≠ n := Ne.symm same_master
          have lists : (t.updEntry m e.id (Entry.filled d i)).responses[n] = t.responses[n] := by
            rw [State.updEntry_responses, upd_ne _ _ apart]
          have timers : (stopTimer m (t.updEntry m e.id (Entry.filled d i))).stallTimers[n] = t.stallTimers[n] :=
            upd_ne _ _ apart
          have rest := cells n
          rw [← lists, ← timers] at rest
          have member : n ∈ done ++ [m] ↔ n ∈ done := by simp [same_master]
          simp only [member]
          exact rest
    · next other =>
      refine idle (fun x h => Bool.eq_false_iff.mpr (fun passes => other ?_))
      obtain rfl := Option.some.inj (h.symm.trans is)
      exact Entry.awaitsSlot_iff.mp passes

theorem mapSlotWaits_fills {w : Fin 16} {i : Fin 4} {d : Definition} {front : Fin 4} {u : SlotUnit} {x : Slot} {k : Work}
    {s : State} (one : s.oneWaiting) (definition : s.definition w = some d) (slots : s.slots[w] = some u)
    (slot : u.slots[i] = some x) (filling : x.state = .filling k) (fresh : k.Fresh d front) :
    Fills w i d u masters s (mapSlotWaits w i s) := by
  refine forMasters_induct (P := fun done t => Fills w i d u done s t) ?_ (fun done m t turn h =>
    h.next one definition slot filling fresh turn)
  refine ⟨one, rfl, rfl, ⟨u, slots, ?_⟩, fun m => ⟨rfl, (if_neg (fun h => nomatch h.1)).symm⟩⟩
  rw [List.map_nil, List.sum_nil, SlotUnit.onSlot_expect_zero]
  exact .refl u

/-! ### Allocation (R46, R47) -/

/-- From `u` to `u'` slot `i`, whose record was `x`, was opened and `n` pieces were mapped to it. -/
structure SlotUnit.Opens (d : Definition) (i : Fin 4) (x : Slot) (n : Nat) (u u' : SlotUnit) : Prop where
  filling : u'.filling = some i
  sealed  : u'.sealed = u.sealed
  front   : u'.front = u.front
  counter : u'.counter = u.counter
  slot    : ∃ x' k', u'.slots[i] = some x' ∧ x'.state = .filling k' ∧ k'.Fresh d u.front ∧ x'.pins = x.pins ∧
    x'.inFlight = x.inFlight ∧ x'.waiting = x.waiting + n
  others  : ∀ j ≠ i, ∀ y, u.slots[j] = some y → ∃ y' hold, u'.slots[j] = some y' ∧ Slot.Copies { y with hold := hold } y'

/-- What an allocation of slot `i`, whose record was `x`, to window `w`, whose slots were `u`, makes of a state. -/
structure Allocates (w : Fin 16) (d : Definition) (u : SlotUnit) (i : Fin 4) (x : Slot) (s t : State) : Prop where
  shifts : Shifts s t
  unit   : ∃ u', t.slots[w] = some u' ∧ u.Opens d i x (masters.map (s.slotPieces w d)).sum u'
  cells  : ∀ m : Fin 16,
    t.responses[m] = s.responses[m].map (fun e => if e.awaitsSlot w = true then e.filled d i else e) ∧
    t.stallTimers[m] = if s.responses[m].any (Entry.awaitsSlot w) = true then none else s.stallTimers[m]
  job    : s.link.part = .running → d.isBackfill = true → t.copier.jobs[w] = some i

/-- The slots of a window, `u` before, in which slot `i` has been opened; the front is held under BACKFILL. -/
def SlotUnit.opened (d : Definition) (i : Fin 4) (u : SlotUnit) : SlotUnit :=
  let v : SlotUnit := { u.onSlot i (fun x => { x with state := .filling (newWork d u.front) }) with filling := some i }
  if d.isBackfill then v.onSlot u.front (fun x => { x with hold := true }) else v

theorem SlotUnit.opened_rest (d : Definition) (i : Fin 4) (u : SlotUnit) : (u.opened d i).filling = some i ∧
    (u.opened d i).sealed = u.sealed ∧ (u.opened d i).front = u.front ∧ (u.opened d i).counter = u.counter := by
  unfold SlotUnit.opened
  cases d.isBackfill <;> exact ⟨rfl, rfl, rfl, rfl⟩

theorem SlotUnit.opened_slot {d : Definition} {i j : Fin 4} {u : SlotUnit} {x : Slot} (slot : u.slots[j] = some x) :
    ∃ hold, (u.opened d i).slots[j] =
      some { x with hold := hold, state := if j = i then .filling (newWork d u.front) else x.state } := by
  have opened : ({ u.onSlot i (fun x => { x with state := .filling (newWork d u.front) }) with filling := some i } :
      SlotUnit).slots[j] = some { x with state := if j = i then .filling (newWork d u.front) else x.state } := by
    refine (SlotUnit.onSlot_get ..).trans ?_
    rw [slot]
    by_cases same : j = i
    · rw [if_pos same, if_pos same]; rfl
    · rw [if_neg same, if_neg same]
  unfold SlotUnit.opened
  cases d.isBackfill with
  | false => exact ⟨x.hold, opened⟩
  | true =>
    refine ⟨if j = u.front then true else x.hold, (SlotUnit.onSlot_get ..).trans ?_⟩
    rw [opened]
    by_cases front : j = u.front
    · rw [if_pos front, if_pos front]; rfl
    · rw [if_neg front, if_neg front]

theorem allocateSlot_chooses (w : Fin 16) (d : Definition) (u : SlotUnit) (i : Fin 4) {s : State}
    (slots : s.slots[w] = some u) : ∃ t, allocateSlot w d u i s = mapSlotWaits w i t ∧
      Chooses (s.withSlots w (u.opened d i)) t ∧
      (s.link.part = .running → d.isBackfill = true → t.copier.jobs[w] = some i) := by
  cases backfill : d.isBackfill with
  | false =>
    refine ⟨_, allocateSlot_plain backfill, ?_, fun _ h => nomatch h⟩
    rw [State.opened, State.onSlots_eq slots, SlotUnit.opened, backfill]
    exact .refl _
  | true =>
    have opened : (s.opened w d u.front i).updSlot w u.front (fun x => { x with hold := true }) =
        s.withSlots w (u.opened d i) := by
      rw [State.opened, State.onSlots_eq slots, State.updSlot_onSlots, State.withSlots_onSlots, SlotUnit.opened, backfill]
      rfl
    refine ⟨_, allocateSlot_backfill backfill, ?_, fun running _ => ?_⟩
    · rw [opened]
      exact chooses_createJob ..
    · rw [opened, createJob, if_neg (show ¬ (s.withSlots w (u.opened d i)).link.part = .resetting by
        rw [show (s.withSlots w (u.opened d i)).link.part = .running from running]; nofun), kickCopier_jobs]
      exact upd_same ..

/-- The slots after an opened slot's copies were chosen and its waits mapped. -/
theorem SlotUnit.opens_of_copies {d : Definition} {u u₀ u' : SlotUnit} {i : Fin 4} {x x₀ : Slot} {n : Nat}
    (copies : (u.opened d i).Copies u₀) (copies' : (u₀.onSlot i (Slot.expect n)).Copies u')
    (slot₀ : u₀.slots[i] = some x₀)
    (copies_x : ∃ hold, Slot.Copies { x with hold := hold, state := .filling (newWork d u.front) } x₀) :
    u.Opens d i x n u' := by
  obtain ⟨filling, sealed, front, counter⟩ := u.opened_rest d i
  obtain ⟨hold, copies_x⟩ := copies_x
  obtain ⟨k₀, filling₀, copies_k⟩ := copies_x.filling rfl
  have slot₁ : (u₀.onSlot i (Slot.expect n)).slots[i] = some (x₀.expect n) := by
    rw [SlotUnit.onSlot_get, if_pos rfl, slot₀]
    rfl
  obtain ⟨x', slot', copies_x'⟩ := copies'.slot slot₁
  obtain ⟨k', filling', copies_k'⟩ := copies_x'.filling (k := k₀) filling₀
  obtain ⟨pins, flying, waiting, -⟩ := copies_x.counts
  obtain ⟨pins', flying', waiting', -⟩ := copies_x'.counts
  refine ⟨copies'.filling.trans (copies.filling.trans filling), copies'.sealed.trans (copies.sealed.trans sealed),
    copies'.front.trans (copies.front.trans front), copies'.counter.trans (copies.counter.trans counter),
    ⟨x', k', slot', filling', ((newWork_fresh d u.front).copies copies_k).copies copies_k', pins'.trans pins,
      flying'.trans flying, waiting'.trans (congrArg (· + n) waiting)⟩, fun j other y is => ?_⟩
  obtain ⟨hold', slot_j⟩ := SlotUnit.opened_slot (d := d) (i := i) is
  rw [if_neg other] at slot_j
  obtain ⟨y₀, slot_j₀, copies_y⟩ := copies.slot slot_j
  have kept : (u₀.onSlot i (Slot.expect n)).slots[j] = some y₀ := by
    rw [SlotUnit.onSlot_get, if_neg other, slot_j₀]
  obtain ⟨y', slot_j', copies_y'⟩ := copies'.slot kept
  exact ⟨y', hold', slot_j', copies_y.trans copies_y'⟩

theorem allocateSlot_allocates {w : Fin 16} {d : Definition} {u : SlotUnit} {i : Fin 4} {x : Slot} {s : State}
    (one : s.oneWaiting) (definition : s.definition w = some d) (slots : s.slots[w] = some u)
    (slot : u.slots[i] = some x) : Allocates w d u i x s (allocateSlot w d u i s) := by
  have shifts := shifts_allocateSlot w d u i s
  obtain ⟨t, is, chooses, job⟩ := allocateSlot_chooses w d u i slots
  obtain ⟨u₀, slots₀, copies₀⟩ := chooses.unit (State.withSlots_slots ..)
  obtain ⟨hold, slot₁⟩ := SlotUnit.opened_slot (d := d) (i := i) slot
  rw [if_pos rfl] at slot₁
  obtain ⟨x₀, slot₀, copies_x⟩ := copies₀.slot slot₁
  obtain ⟨k₀, filling₀, copies_k⟩ := copies_x.filling rfl
  have one' : t.oneWaiting := by
    unfold State.oneWaiting
    rw [chooses.responses, chooses.nextId]
    exact one
  have definition' : t.definition w = some d := by rw [chooses.frame]; exact definition
  have pieces : t.slotPieces w d = s.slotPieces w d := funext fun m => by
    unfold State.slotPieces
    rw [chooses.current]
    rfl
  have fills := mapSlotWaits_fills one' definition' slots₀ slot₀ filling₀
    ((newWork_fresh d u.front).copies copies_k)
  obtain ⟨u', slots', copies'⟩ := fills.unit
  rw [pieces] at copies'
  rw [is] at shifts ⊢
  refine ⟨shifts, ⟨u', slots', SlotUnit.opens_of_copies copies₀ copies' slot₀ ⟨hold, copies_x⟩⟩, fun m => ?_,
    fun running backfill => (congrArg (fun jobs : Vector _ 16 => jobs[w]) fills.jobs).trans (job running backfill)⟩
  have cells := fills.cells m
  simp only [mem_masters, if_true, true_and, chooses.responses, chooses.stallTimers] at cells
  exact cells

/-- An allocation attempt of a LIVE window with neither a FILLING nor a SEALED slot opens its lowest-numbered FREE slot. -/
theorem allocate_allocates {w : Fin 16} {d : Definition} {u : SlotUnit} {i : Fin 4} {x : Slot} {s : State}
    (one : s.oneWaiting) (live : s.windows[w].state = .live) (definition : s.definition w = some d)
    (slots : s.slots[w] = some u) (unfilled : u.filling = none) (unsealed : u.sealed = none)
    (slot : u.slots[i] = some x) (free : x.state = .free)
    (lowest : ∀ j < i, ∀ y, u.slots[j] = some y → y.state ≠ .free) : Allocates w d u i x s (allocate w s) := by
  rw [allocate_slot live definition slots unfilled unsealed (SlotUnit.lowestFree_eq_some slot free lowest)]
  exact allocateSlot_allocates one definition slots slot

end Sys2Proof.Machine
end


section
/-! SUPPORT. The release of a pin (R55, R61): the slot retires, or is freed and allocated anew, or stays; and the idle
expiry of a view (R116). -/

namespace Sys2Proof.Machine

/-! ### Allocation, as the statements name it -/

theorem State.slotPieces_congr {s t : State} {w : Fin 16} {d : Definition}
    (same : ∀ m e, e.awaitsSlot w = true → (s.current m = some e ↔ t.current m = some e)) :
    s.slotPieces w d = t.slotPieces w d := by
  funext m
  unfold State.slotPieces
  cases before : s.current m with
  | none =>
    cases after : t.current m with
    | none => rfl
    | some e =>
      dsimp only
      rw [if_neg (fun waits => nomatch before.symm.trans ((same m e waits).mpr after))]
  | some e =>
    dsimp only
    by_cases waits : e.awaitsSlot w = true
    · rw [(same m e waits).mp before]
    · rw [if_neg waits]
      cases after : t.current m with
      | none => rfl
      | some e' =>
        dsimp only
        rw [if_neg (fun waits' => ?_)]
        obtain rfl := Option.some.inj (before.symm.trans ((same m e' waits').mpr after))
        exact waits waits'

/-- A current request of a list whose entries changed, each waiting as it did. -/
theorem State.current_map {s t : State} {m : Fin 16} {f : Entry → Entry} (list : t.responses[m] = s.responses[m].map f)
    (keeps : ∀ e, (f e).isWaiting = e.isWaiting) : t.current m = (s.current m).map f := by
  rw [State.current, list, List.find?_map]
  exact congrArg (fun p => (s.responses[m].find? p).map f) (funext keeps)

/-- What an allocation makes of a write in a slot wait. -/
theorem Allocates.waits {w : Fin 16} {d : Definition} {u : SlotUnit} {i : Fin 4} {x : Slot} {s t : State}
    (h : Allocates w d u i x s t) {m : Fin 16} {e : Entry} (current : s.current m = some e) (waits : e.awaitsSlot w = true) :
    t.current m = some (e.filled d i) ∧ t.stallTimers[m] = none := by
  obtain ⟨list, timer⟩ := h.cells m
  have keeps (x : Entry) : (if x.awaitsSlot w = true then x.filled d i else x).isWaiting = x.isWaiting := by
    split
    · next waits => rw [Entry.isWaiting_of_awaitsSlot waits]; rfl
    · rfl
  refine ⟨?_, timer.trans (if_pos (List.any_eq_true.mpr ⟨e, (State.current_eq_some current).1, waits⟩))⟩
  rw [State.current_map list keeps, current, Option.map_some, if_pos waits]

theorem Slot.counts_of_blur {x x' : Slot} (h : x'.blur = x.blur) :
    x'.pins = x.pins ∧ x'.inFlight = x.inFlight ∧ x'.waiting = x.waiting ∧ x'.hold = x.hold := by
  have counts (y : Slot) : y.blur.pins = y.pins ∧ y.blur.inFlight = y.inFlight ∧ y.blur.waiting = y.waiting ∧
      y.blur.hold = y.hold := by
    obtain ⟨state, _, _, _, _⟩ := y
    cases state <;> exact ⟨rfl, rfl, rfl, rfl⟩
  obtain ⟨pins, flying, waiting, hold⟩ := counts x
  obtain ⟨pins', flying', waiting', hold'⟩ := counts x'
  rw [h] at pins' flying' waiting' hold'
  exact ⟨pins'.symm.trans pins, flying'.symm.trans flying, waiting'.symm.trans waiting, hold'.symm.trans hold⟩

/-- A slot that is FILLING, seen without its map. -/
theorem Slot.filling_of_blur {x x' : Slot} {k : Work} (h : x'.blur = x.blur) (filling : x.state = .filling k) :
    ∃ k', x'.state = .filling k' ∧ k'.written = k.written ∧ k'.map.length = k.map.length ∧ k'.source = k.source := by
  obtain ⟨state, _, _, _, _⟩ := x
  obtain rfl : state = .filling k := filling
  obtain ⟨state', _, _, _, _⟩ := x'
  cases state' with
  | filling k' =>
    simp only [Slot.blur, Slot.updWork, Slot.mk.injEq, SlotState.filling.injEq, Work.mk.injEq] at h
    obtain ⟨⟨map, written, source⟩, -⟩ := h
    have length := congrArg List.length map
    rw [List.length_replicate, List.length_replicate] at length
    exact ⟨k', rfl, written, length, source⟩
  | _ => simp [Slot.blur, Slot.updWork] at h

/-- An allocation in the course of a command on `s₀`, at a state `s` with its slot waits, and kept to the end `t'`, where
other slots may have changed. -/
theorem Allocates.allocated_but {w : Fin 16} {d : Definition} {u u₀ : SlotUnit} {i : Fin 4} {x : Slot} {s₀ s t t' : State}
    (h : Allocates w d u i x s t) (front : u.front = u₀.front) (counter : u.counter = u₀.counter)
    (unused : x.inFlight = 0 ∧ x.waiting = 0)
    (same : ∀ m e, e.awaitsSlot w = true → (s.current m = some e ↔ s₀.current m = some e))
    (slots : ∀ v, t.slots[w] = some v → ∃ v', t'.slots[w] = some v' ∧ v'.filling = v.filling ∧ v'.front = v.front ∧
      v'.counter = v.counter ∧ v'.slots[i].map Slot.blur = v.slots[i].map Slot.blur)
    (kept : ∀ m e, s.current m = some e → e.awaitsSlot w = true →
      t'.current m = t.current m ∧ t'.stallTimers[m] = t.stallTimers[m]) : s₀.allocated t' w i u₀ d := by
  obtain ⟨v, slots', opens⟩ := h.unit
  obtain ⟨x', k', slot', filling, fresh, -, flying, waiting⟩ := opens.slot
  obtain ⟨v', unit, filled, front', counter', same_slot⟩ := slots v slots'
  rw [slot'] at same_slot
  obtain ⟨x'', slot'', blurred⟩ := Option.map_eq_some_iff.mp same_slot
  obtain ⟨-, flying', waiting', -⟩ := Slot.counts_of_blur blurred
  obtain ⟨k'', filling', written, length, source⟩ := Slot.filling_of_blur blurred filling
  refine ⟨v', x'', k'', unit, filled.trans opens.filling, front'.trans (opens.front.trans front),
    counter'.trans (opens.counter.trans counter), slot'', filling', flying'.trans (flying.trans unused.1),
    written.trans fresh.written, length.trans fresh.length, source.trans (front ▸ fresh.source), ?_,
    fun m e current waits => ?_⟩
  · rw [waiting', waiting, unused.2, Nat.zero_add, State.slotPieces_congr (t := s₀) same]
    rfl
  · have here := (same m e waits).mpr current
    obtain ⟨current', timer'⟩ := h.waits here waits
    obtain ⟨currents, timers⟩ := kept m e here waits
    exact ⟨timers.trans timer', e.filled d i, currents.trans current', rfl, rfl, rfl⟩

/-- An allocation in the course of a command on `s₀`, the window's slots kept to the end. -/
theorem Allocates.allocated {w : Fin 16} {d : Definition} {u u₀ : SlotUnit} {i : Fin 4} {x : Slot} {s₀ s t t' : State}
    (h : Allocates w d u i x s t) (front : u.front = u₀.front) (counter : u.counter = u₀.counter)
    (unused : x.inFlight = 0 ∧ x.waiting = 0)
    (same : ∀ m e, e.awaitsSlot w = true → (s.current m = some e ↔ s₀.current m = some e))
    (slots : t'.slots[w] = t.slots[w])
    (kept : ∀ m e, s.current m = some e → e.awaitsSlot w = true →
      t'.current m = t.current m ∧ t'.stallTimers[m] = t.stallTimers[m]) : s₀.allocated t' w i u₀ d :=
  h.allocated_but front counter unused same (fun v is => ⟨v, slots.trans is, rfl, rfl, rfl, rfl⟩) kept

/-! ### The release of a pin (R55, R61) -/

theorem unpinSlot_front {w : Fin 16} {i : Fin 4} {u : SlotUnit} {s : State} (slots : s.slots[w] = some u)
    (front : i = u.front) :
    unpinSlot w i s = s.withSlots w (u.onSlot i (fun x => { x with pins := x.pins - 1 })) := by
  rw [unpinSlot, State.updSlot_onSlots, State.onSlots_eq slots]
  unfold retire
  rw [State.withSlots_slots]
  split
  · next v x is _ =>
    obtain rfl := Option.some.inj is
    rw [if_neg (fun h => h.2.1 front.symm)]
  · rfl

/-- A slot's last pin goes. -/
def Slot.retires (x : Slot) : Prop := x.isPublished = true ∧ x.pins ≤ 1 ∧ x.hold = false

theorem Slot.released_stays {x : Slot} (stays : ¬ x.retires) : x.released = { x with pins := x.pins - 1 } := by
  rw [Slot.released, if_neg (show ¬ (x.isPublished = true ∧ x.pins ≤ 1 ∧ x.hold = false) from stays)]

theorem unpinSlot_stays {w : Fin 16} {i : Fin 4} {u : SlotUnit} {x : Slot} {s : State} (slots : s.slots[w] = some u)
    (slot : u.slots[i] = some x) (stays : ¬ x.retires) : unpinSlot w i s = s.withSlots w (u.onSlot i Slot.released) := by
  have same : u.onSlot i (fun x => { x with pins := x.pins - 1 }) = u.onSlot i Slot.released :=
    SlotUnit.onSlot_congr slot (Slot.released_stays stays).symm
  have is : (s.withSlots w (u.onSlot i Slot.released)).slot w i = some { x with pins := x.pins - 1 } := by
    rw [State.slot_of (State.withSlots_slots ..), SlotUnit.onSlot_get, if_pos rfl, slot, Option.map_some,
      Slot.released_stays stays]
  rw [unpinSlot, State.updSlot_onSlots, State.onSlots_eq slots, same]
  unfold retire
  rw [State.withSlots_slots, is]
  dsimp only
  rw [if_neg]
  rintro ⟨published, -, pins, hold⟩
  exact stays ⟨published, by omega, hold⟩

/-- The last pin of a slot that is not the front goes, and the slot leaves use. -/
theorem unpinSlot_retires {w : Fin 16} {i : Fin 4} {u : SlotUnit} {x : Slot} {s : State} (slots : s.slots[w] = some u)
    (slot : u.slots[i] = some x) (retires : x.retires) (behind : i ≠ u.front) :
    unpinSlot w i s = if x.inFlight = 0 ∧ x.waiting = 0 then allocate w (s.withSlots w (u.onSlot i Slot.released))
      else s.withSlots w (u.onSlot i Slot.released) := by
  obtain ⟨published, pins, hold⟩ := retires
  have is : (s.withSlots w (u.onSlot i (fun x => { x with pins := x.pins - 1 }))).slot w i =
      some { x with pins := x.pins - 1 } := by
    rw [State.slot_of (State.withSlots_slots ..), SlotUnit.onSlot_get, if_pos rfl, slot]
    rfl
  have left : ((s.withSlots w (u.onSlot i (fun x => { x with pins := x.pins - 1 }))).updSlot w i Slot.leave) =
      s.withSlots w (u.onSlot i Slot.released) := by
    rw [State.updSlot_onSlots, State.withSlots_onSlots, SlotUnit.onSlot_onSlot]
    refine congrArg (s.withSlots w) (SlotUnit.onSlot_congr slot ?_)
    rw [Slot.released, if_pos ⟨published, pins, hold⟩]
    rfl
  rw [unpinSlot, State.updSlot_onSlots, State.onSlots_eq slots]
  unfold retire
  rw [State.withSlots_slots, is, left]
  dsimp only
  exact if_pos ⟨published, behind.symm, by omega, hold⟩

/-- A pin is released and no allocation follows. -/
theorem unpinSlot_freesNone {w : Fin 16} {i : Fin 4} {u : SlotUnit} {x : Slot} {s : State} (slots : s.slots[w] = some u)
    (slot : u.slots[i] = some x) (behind : i ≠ u.front) (none_freed : s.freesNone w u x) :
    unpinSlot w i s = s.withSlots w (u.onSlot i Slot.released) := by
  by_cases retires : x.retires
  · rw [unpinSlot_retires slots slot retires behind]
    split
    · next unused =>
      obtain ⟨published, pins, hold⟩ := retires
      refine allocate_idle ?_
      rcases none_freed with h | h | h | h | h | h | h
      · exact absurd published (by rw [h]; nofun)
      · omega
      · exact absurd hold (by rw [h]; nofun)
      · exact absurd unused.1 h
      · exact absurd unused.2 h
      · exact .inl h
      · refine .inr (fun v is => ?_)
        rw [State.withSlots_slots] at is
        obtain rfl := Option.some.inj is
        exact h
    · rfl
  · exact unpinSlot_stays slots slot retires

/-- The last pin of a slot is released, and the slot, being free, is allocated. -/
theorem unpinSlot_frees {w : Fin 16} {i : Fin 4} {d : Definition} {u : SlotUnit} {x : Slot} {s : State} (one : s.oneWaiting)
    (definition : s.definition w = some d) (slots : s.slots[w] = some u) (slot : u.slots[i] = some x)
    (behind : i ≠ u.front) (freed : s.frees w u i x) :
    Allocates w d (u.onSlot i Slot.released) i x.released (s.withSlots w (u.onSlot i Slot.released)) (unpinSlot w i s) := by
  obtain ⟨published, pins, hold, flying, waiting, live, unfilled, unsealed, lowest⟩ := freed
  rw [unpinSlot_retires slots slot ⟨published, pins, hold⟩ behind, if_pos ⟨flying, waiting⟩]
  refine allocate_allocates (s := s.withSlots w _) one live definition (State.withSlots_slots ..) unfilled unsealed ?_ ?_
    (fun j below y is => ?_)
  · rw [SlotUnit.onSlot_get, if_pos rfl, slot]
    rfl
  · rw [Slot.released, if_pos ⟨published, pins, hold⟩, if_pos ⟨flying, waiting⟩]
  · rw [SlotUnit.onSlot_get, if_neg (ne_of_lt below)] at is
    exact lowest j below y is

/-! ### Idle timers (R116) -/

theorem idleDue_eq {w : Fin 16} {c : Fin 8} {b : Binding} {v : View} {start : Micros} {s : State}
    (bound : s.consumers[c] = some b) (view : s.view w c = some v) (timer : v.timer = some start) :
    idleDue s w c = decide (b.idle ≠ 0 ∧ b.idle ≤ (s.timebase - start).toNat) := by
  have limit : s.idleLimit c = b.idle := by simp only [State.idleLimit, bound]
  simp [idleDue, limit, view, timer, elapsed]

/-- The release of a view whose pin is `held`. -/
theorem idleRelease_eq {w : Fin 16} {c : Fin 8} {v : View} {s : State} (view : s.view w c = some v) :
    idleRelease w c s =
      let t := s.updView w c (fun _ => { v with state := .unpinned, mark := none, timer := none })
      match v.state with
      | .unpinned => t
      | .torn => t
      | held => post (.viewReleased w c) (givePinUp w held t) := by
  rw [← State.updView_put view (fun v => { v with state := .unpinned, mark := none, timer := none })]
  simp only [idleRelease, view] <;> rfl

end Sys2Proof.Machine

namespace Sys2Proof
open Machine

/-- Settles O39: an idle expiry that is due gives up what the view holds. -/
theorem idleExpiryReleasesView : Obligations.IdleExpiryReleasesView := by
  intro w c b v start s bound view timer freed
  have due := idleDue_eq bound view timer
  refine ⟨fun early => congrArg Host.Outcome.next (if_neg ?_), fun idle late => ?_⟩
  · rw [due]
    simp only [decide_eq_true_eq, not_and, Nat.not_le]
    exact fun idle => early.resolve_left idle
  · have expires : exec (.idleExpiry w c) s = .next (idleRelease w c s) :=
      congrArg Host.Outcome.next (if_pos (due.trans (decide_eq_true ⟨idle, late⟩)))
    rw [expires, idleRelease_eq view]
    refine ⟨fun torn => by rw [torn], fun i g u x held slots slot => ?_, fun o lag d held definition => ?_⟩
    · intro released
      rw [held]
      refine ⟨fun front => congrArg Host.Outcome.next ?_, fun behind none_freed => congrArg Host.Outcome.next ?_,
        fun behind frees one d definition => ?_⟩
      · exact congrArg (post (.viewReleased w c)) (unpinSlot_front (s := s.updView w c _) slots front)
      · exact congrArg (post (.viewReleased w c)) (unpinSlot_freesNone (s := s.updView w c _) slots slot behind none_freed)
      · have allocates := unpinSlot_frees (s := s.updView w c (fun _ => freed)) one definition slots slot behind frees
        refine ⟨_, rfl, allocates.allocated rfl rfl ⟨frees.2.2.2.1, frees.2.2.2.2.1⟩ (fun _ _ _ => .rfl) rfl
          (fun _ _ _ _ => ⟨rfl, rfl⟩), ?_, ?_⟩
        · refine (allocates.shifts.view w c).trans ((State.updView_get ..).trans ?_)
          rw [view]
          rfl
        · show (unpinSlot w i _).notice.take _ (unpinSlot w i _).timebase = _
          rw [allocates.shifts.notice, allocates.shifts.timebase]
          rfl
    · rw [held]
      have sees_eq : sees ((s.updView w c (fun _ => freed)).definition w) lag = decide (d.staging ≤ lag) :=
        congrArg (fun d => sees d lag) definition
      refine ⟨fun unseen => congrArg Host.Outcome.next ?_,
        fun u one seen rolls => congrArg Host.Outcome.next ?_⟩
      · have kept : givePinUp w (.pinnedOrigin o lag) (s.updView w c (fun _ => freed)) = s.updView w c (fun _ => freed) := by
          simp only [givePinUp]
          exact if_neg (by rw [sees_eq]; simpa using unseen)
        exact (congrArg (post (.viewReleased w c)) kept).trans rfl
      · have left : givePinUp w (.pinnedOrigin o lag) (s.updView w c (fun _ => freed)) =
            (s.updView w c (fun _ => freed)).leftSeeing w d u := by
          simp only [givePinUp]
          rw [if_pos (sees_eq.trans (decide_eq_true seen))]
          exact leaveSeeing_eq (s := s.updView w c _) one definition rolls
        exact (congrArg (post (.viewReleased w c)) left).trans rfl

end Sys2Proof
end


section
/-! SUPPORT. The completion DONE of a piece of a window (R18, R62, R125), the last piece of a closing write among them. -/

namespace Sys2Proof.Machine

theorem pieceCompleted_done {e : Entry} {w : Fin 16} (window : e.window = some w) (m : Fin 16) (k : Nat) (p : Piece)
    (s : State) : pieceCompleted m e k p .done s =
      let t := countCompletion w p (s.updEntry m e.id (Entry.withPiece k p))
      if (e.withPiece k p).allComplete = true then finishRequest m (e.withPiece k p) t else t := by
  rw [pieceCompleted_eq window]
  simp only [reduceCtorEq, false_and, if_false]

theorem testReset_pieceCompleted {m : Fin 16} {e : Entry} {k : Nat} {p : Piece} {status : MemStatus} {s : State}
    (running : s.link.part = .running) :
    testReset (pieceCompleted m e k p status s) = pieceCompleted m e k p status s :=
  testReset_running ((congrArg Link.part (works_pieceCompleted m e k p status s).link).trans running)

/-! ### The last piece of a closing write (R125) -/

/-- Two changes that agree on the entry they find are one. -/
theorem State.oneWaiting.updEntry_same {s : State} (one : s.oneWaiting) {m : Fin 16} {e : Entry}
    (listed : e ∈ s.responses[m]) {f g : Entry → Entry} (same : f e = g e) :
    s.updEntry m e.id f = s.updEntry m e.id g := by
  have list : s.responses[m].map (fun x => if x.id = e.id then f x else x) =
      s.responses[m].map (fun x => if x.id = e.id then g x else x) := by
    refine List.map_congr_left (fun x listed' => ?_)
    split
    · next number => rw [List.inj_on_of_nodup_map (one m).1 listed' listed number, same]
    · rfl
  rw [State.updEntry, State.updEntry, upd, upd, list]

/-- The pieces of a write whose last one completes DONE. -/
theorem stages_done {pieces : List Piece} {k : Nat} {p : Piece} (last : p.stage = .done [])
    (others : ∀ (j : Nat) q, pieces[j]? = some q → j ≠ k → q.stage = .done []) :
    ∀ q ∈ pieces.set k p, q.stage = .done [] := by
  intro q listed
  obtain ⟨j, is⟩ := List.mem_iff_getElem?.mp listed
  rw [List.getElem?_set] at is
  split at is
  · split at is
    · obtain rfl := Option.some.inj is
      exact last
    · cases is
  · next other => exact others j q is (Ne.symm other)

theorem Entry.complete_of_done {e : Entry} (done : ∀ q ∈ e.pieces, q.stage = .done []) :
    e.allComplete = true ∧ e.anyFault = false := by
  refine ⟨List.all_eq_true.mpr (fun q listed => ?_), List.any_eq_false.mpr (fun q listed => ?_)⟩
  · rw [done q listed]
  · rw [done q listed]
    simp

/-- The last piece of a closing write completes DONE: its commit arrives before its drain set is told. -/
theorem pieceCompleted_closing {m : Fin 16} {e : Entry} {k : Nat} {p : Piece} {w : Fin 16} {s counted : State}
    (window : e.window = some w) (closing : e.closing = true) (done : ∀ q ∈ e.pieces.set k p, q.stage = .done [])
    (counts : countCompletion w p (s.updEntry m e.id (Entry.withPiece k p)) =
      counted.updEntry m e.id (Entry.withPiece k p)) : pieceCompleted m e k p .done s =
      let t := arrive w { action := .publish, tag := 0, master := some m, trigger := some (m, e.id) }
        (counted.updEntry m e.id (fun x => (x.withPiece k p).addCommit.settle))
      if e.inDrain = true then lowerDrain w t else t := by
  obtain ⟨complete, clean⟩ := Entry.complete_of_done (e := e.withPiece k p) done
  have settle : (counted.updEntry m e.id (Entry.withPiece k p)).updEntry m e.id (fun x => x.addCommit.settle) =
      counted.updEntry m e.id (fun x => (x.withPiece k p).addCommit.settle) :=
    counted.updEntry_updEntry m e.id (fun _ => rfl)
  have finish (t : State) : finishRequest m (e.withPiece k p) t =
      if e.inDrain = true then lowerDrain w (arrive w
          { action := .publish, tag := 0, master := some m, trigger := some (m, e.id) }
          (t.updEntry m e.id (fun x => x.addCommit.settle)))
      else arrive w { action := .publish, tag := 0, master := some m, trigger := some (m, e.id) }
          (t.updEntry m e.id (fun x => x.addCommit.settle)) := by
    simp only [finishRequest, show (e.withPiece k p).window = some w from window, closingCommit,
      if_pos (show (e.withPiece k p).closing = true ∧ (e.withPiece k p).anyFault = false from ⟨closing, clean⟩)]
    rfl
  rw [pieceCompleted_done window]
  dsimp only
  rw [complete, if_pos rfl, counts, finish, settle]

/-! ### The last piece to a RETIRING slot (R62) -/

theorem lowerSlotInFlight_frees {w : Fin 16} {i : Fin 4} {u : SlotUnit} {x : Slot} {s : State}
    (slots : s.slots[w] = some u) (slot : u.slots[i] = some x) (retiring : x.state = .retiring) (flying : x.inFlight ≤ 1)
    (waiting : x.waiting = 0) : lowerSlotInFlight w i s = allocate w (s.withSlots w (u.onSlot i Slot.landed)) := by
  have is : (s.withSlots w (u.onSlot i (fun x => { x with inFlight := x.inFlight - 1 }))).slot w i =
      some { x with inFlight := x.inFlight - 1 } := by
    rw [State.slot_of (State.withSlots_slots ..), SlotUnit.onSlot_get, if_pos rfl, slot]
    rfl
  have freed : (s.withSlots w (u.onSlot i (fun x => { x with inFlight := x.inFlight - 1 }))).updSlot w i
      (fun x => { x with state := .free }) = s.withSlots w (u.onSlot i Slot.landed) := by
    rw [State.updSlot_onSlots, State.withSlots_onSlots, SlotUnit.onSlot_onSlot]
    refine congrArg (s.withSlots w) (SlotUnit.onSlot_congr slot ?_)
    rw [Slot.landed, if_pos ⟨retiring, flying, waiting⟩]
  rw [lowerSlotInFlight, State.updSlot_onSlots, State.onSlots_eq slots]
  unfold freeRetiring
  rw [is, freed]
  exact if_pos ⟨retiring, Nat.sub_eq_zero_of_le flying, waiting⟩

/-- A change of an entry leaves the current requests that pass a test which the entry fails before and after. -/
theorem State.oneWaiting.current_iff {s : State} (one : s.oneWaiting) {m : Fin 16} {e : Entry}
    (listed : e ∈ s.responses[m]) {f : Entry → Entry} (keeps : ∀ x, (f x).isWaiting = x.isWaiting) {test : Entry → Bool}
    (before : test e = false) (after : test (f e) = false) (n : Fin 16) (x : Entry) (passes : test x = true) :
    (s.updEntry m e.id f).current n = some x ↔ s.current n = some x := by
  by_cases same : n = m
  · subst same
    have keeps' (y : Entry) : (if y.id = e.id then f y else y).isWaiting = y.isWaiting := by
      split
      · exact keeps y
      · rfl
    have list : (s.updEntry n e.id f).responses[n] =
        s.responses[n].map (fun y => if y.id = e.id then f y else y) := by
      rw [State.updEntry_responses, upd_same]
    rw [State.current_map list keeps', Option.map_eq_some_iff]
    refine ⟨fun ⟨y, current, is⟩ => ?_, fun current => ⟨x, current, if_neg (fun number => ?_)⟩⟩
    · split at is
      · next number =>
        obtain rfl := List.inj_on_of_nodup_map (one n).1 (State.current_eq_some current).1 listed number
        exact nomatch (is ▸ passes).symm.trans after
      · rwa [← is]
    · obtain rfl := List.inj_on_of_nodup_map (one n).1 (State.current_eq_some current).1 listed number
      exact nomatch passes.symm.trans before
  · rw [State.current_updEntry_ne s same]

/-- The entry of a closing write whose one commit waits. -/
theorem Entry.closing_held {e : Entry} (k : Nat) (p : Piece) (created : e.created = 0) (unresolved : e.unresolved = 0) :
    (e.withPiece k p).addCommit.settle =
      { e with pieces := e.pieces.set k p, stage := .held, inDrain := false, created := 1, unresolved := 1 } := by
  simp [Entry.settle, Entry.addCommit, Entry.withPiece, created, unresolved]

/-- The entry of a closing write whose one commit has been discarded. -/
theorem Entry.closing_denied {e : Entry} {k : Nat} {p : Piece} (write : e.request.kind = .write) (created : e.created = 0)
    (unresolved : e.unresolved = 0) (untaken : e.anyTaken = false) (clean : (e.withPiece k p).anyFault = false) :
    ((e.withPiece k p).addCommit.settle).resolve false =
      { e with pieces := e.pieces.set k p, stage := .complete ⟨.denied, []⟩, inDrain := false, created := 1
               unresolved := 0 } := by
  rw [Entry.closing_held k p created unresolved]
  have faultless : (e.pieces.set k p).any (fun p => decide (p.stage = .faulted)) = false := clean
  simp [Entry.resolve, Entry.settle, Entry.answer, Entry.anyFault, faultless, untaken, write]

end Sys2Proof.Machine

namespace Sys2Proof
open Machine

/-- Settles O25: the tallies of the completion, the commit of a closing write, and the allocation that a freed slot leads
to. -/
theorem windowPieceDone : Obligations.WindowPieceDone := by
  refine ⟨fun tag data q m id k e p w s running place owner entry piece window closing => ?_,
    fun tag data q m id k e p w s one running place owner entry piece window closing kind created unresolved untaken others
      target => ?_,
    fun tag data q m id k e p w i u x d s one running place owner entry piece window closing calm target slots slot
      retiring flying waiting live unfilled unsealed lowest definition => ?_⟩
  · intro p' finished done
    obtain rfl : e.id = id := by simpa using List.find?_some entry
    have last : finished = (e.withPiece k p').allComplete := (Entry.allComplete_eq (e.withPiece k p')).symm
    have ends (slots : Vector (Option SlotUnit) 16) (rolls : Vector (Option RollState) 16)
        (counts : countCompletion w p' ((releasePlace tag s).updEntry m e.id (Entry.withPiece k p')) =
          ({ (releasePlace tag s).tallied w with slots := slots, rolls := rolls } : State).updEntry m e.id
            (Entry.withPiece k p')) : exec (.pieceCompletion tag .done data) s = .next (done slots rolls) := by
      rw [completePiece_eq place owner entry piece, testReset_pieceCompleted (s := releasePlace tag s) running,
        pieceCompleted_done window]
      dsimp only
      rw [counts, finished_eq window (fun h => nomatch closing.symm.trans h.1), ← last]
      refine congrArg Host.Outcome.next ?_
      simp only [done]
      cases finished <;> cases e.inDrain <;> rfl
    refine ⟨fun i u x target slots slot idle => ends _ _ ?_, fun n target => ends _ _ ?_,
      fun n j d u target definition rolls other => ends _ _ ?_⟩
    · exact countCompletion_slot (p := p') (s := (releasePlace tag s).updEntry m e.id (Entry.withPiece k p')) target slots
        slot idle
    · exact countCompletion_uncounted (p := p') target ((releasePlace tag s).updEntry m e.id (Entry.withPiece k p'))
    · have counts (t : State) : countCompletion w p' t = lowerRead w j (t.tallied w) := by
        simp only [countCompletion, show p'.target = .line n (some j) from target]
        rfl
      rw [counts]
      refine (lowerRead_eq (s := ((releasePlace tag s).updEntry m e.id (Entry.withPiece k p')).tallied w) (d := d) (u := u)
        ?_ rolls j).trans (if_neg other)
      simpa [State.definition, State.tallied, releasePlace, State.updEntry] using definition
  · obtain rfl : e.id = id := by simpa using List.find?_some entry
    have listed : e ∈ s.responses[m] := List.mem_of_find?_eq_some entry
    have done : ∀ q ∈ e.pieces.set k (p.complete .write .done data), q.stage = .done [] := stages_done rfl others
    have clean : (e.withPiece k (p.complete .write .done data)).anyFault = false :=
      (Entry.complete_of_done (e := e.withPiece k (p.complete .write .done data)) done).2
    intro commit drained stored
    let counted : State := { (releasePlace tag s).tallied w with
      slots := match p.target with
        | .slot i => s.slots.set w (s.slots[w].map (fun u => u.onSlot i (fun x => { x with inFlight := x.inFlight - 1 })))
        | _ => s.slots }
    have counts : countCompletion w (p.complete .write .done data) ((releasePlace tag s).updEntry m e.id
        (Entry.withPiece k (p.complete .write .done data))) =
        counted.updEntry m e.id (Entry.withPiece k (p.complete .write .done data)) := by
      rcases target with ⟨i, u, x, target, slots, slot, stays⟩ | ⟨n, target⟩
      · refine (countCompletion_slot (p := p.complete .write .done data) (s := (releasePlace tag s).updEntry m e.id
          (Entry.withPiece k (p.complete .write .done data))) target slots slot (.inl stays)).trans ?_
        have landed : u.onSlot i Slot.landed = u.onSlot i (fun x => { x with inFlight := x.inFlight - 1 }) := by
          refine SlotUnit.onSlot_congr slot ?_
          rw [Slot.landed, if_neg (fun h => stays h.1)]
        simp only [counted, target, slots, landed, Option.map_some]
        rfl
      · refine (countCompletion_uncounted (p := p.complete .write .done data) target _).trans ?_
        simp only [counted, target]
        rfl
    have one' : counted.oneWaiting := one
    have held : counted.updEntry m e.id (fun x => (x.withPiece k (p.complete .write .done data)).addCommit.settle) =
        stored .held 1 s.commits s.notice :=
      one'.updEntry_same listed (Entry.closing_held k _ created unresolved)
    have completes : exec (.pieceCompletion tag .done data) s = .next
        (if e.inDrain = true then lowerDrain w (arrive w commit (stored .held 1 s.commits s.notice))
          else arrive w commit (stored .held 1 s.commits s.notice)) := by
      rw [completePiece_eq place owner entry piece, testReset_pieceCompleted (s := releasePlace tag s) running, kind,
        pieceCompleted_closing window closing done counts, held]
    have state : (stored .held 1 s.commits s.notice).windows[w].state = s.windows[w].state := State.tallied_state s w
    rw [completes]
    refine ⟨fun live room busy => congrArg Host.Outcome.next ?_, fun live empty idle undrained => ?_,
      fun reason discards => congrArg Host.Outcome.next ?_⟩
    · rw [arrive_queued (s := stored .held 1 s.commits s.notice) running (state.trans live) room busy]
      have unchanged : (stored .held 1 s.commits s.notice).commits = s.commits := rfl
      simp only [drained, unchanged]
      cases e.inDrain with
      | false => rfl
      | true =>
        simp only [if_true, lowerDrain, State.updCommits, upd, Fin.getElem_fin, Vector.getElem_set_self, Vector.set_set]
        rfl
    · rw [undrained, if_neg Bool.false_ne_true]
      exact arrive_begins (s := stored .held 1 s.commits s.notice) running (state.trans live) empty idle
    · rw [arrive_discarded (s := stored .held 1 s.commits s.notice) running (state.symm ▸ discards)]
      have denied : (stored .held 1 s.commits s.notice).updEntry m e.id (Entry.resolve false) =
          stored (.complete ⟨.denied, []⟩) 0 s.commits s.notice := by
        rw [← held]
        exact (State.updEntry_updEntry counted m e.id
            (f := fun x => (x.withPiece k (p.complete .write .done data)).addCommit.settle) (fun _ => rfl)).trans
          (one'.updEntry_same listed (Entry.closing_denied kind created unresolved untaken clean))
      have discarded : discardCommit w reason commit (stored .held 1 s.commits s.notice) =
          stored (.complete ⟨.denied, []⟩) 0 s.commits
            (s.notice.take (.commitDiscarded w reason (some m) 0) s.timebase) :=
        congrArg (post (.commitDiscarded w reason (some m) 0)) denied
      rw [discarded]
      simp only [drained]
      cases e.inDrain with
      | false => simp [stored]
      | true => rfl
  · obtain rfl : e.id = id := by simpa using List.find?_some entry
    have listed : e ∈ s.responses[m] := List.mem_of_find?_eq_some entry
    let p' : Piece := p.complete e.request.kind .done data
    let s₁ : State := ((releasePlace tag s).updEntry m e.id (Entry.withPiece k p')).tallied w
    have outside : e.awaitsSlot w = false := by rw [Entry.awaitsSlot, calm, Bool.and_false]
    have one₁ : s₁.oneWaiting := State.oneWaiting.works (s := releasePlace tag s)
      (t := (releasePlace tag s).updEntry m e.id (Entry.withPiece k p')) one
      (Works.updEntry _ m e.id _ (fun _ => rfl) (fun _ h => h))
    have definition₁ : s₁.definition w = some d := by
      simpa [State.definition, s₁, State.tallied, releasePlace, State.updEntry] using definition
    have same (n : Fin 16) (y : Entry) (waits : y.awaitsSlot w = true) : s₁.current n = some y ↔ s.current n = some y :=
      State.oneWaiting.current_iff (s := releasePlace tag s) (f := Entry.withPiece k p') one listed
        (fun _ => rfl) outside outside n y waits
    have opened : (u.onSlot i Slot.landed).slots[i] = some x.landed := by
      rw [SlotUnit.onSlot_get, if_pos rfl, slot]
      rfl
    have free : x.landed.state = .free := if_pos ⟨retiring, flying, waiting⟩
    have allocates : Allocates w d (u.onSlot i Slot.landed) i x.landed (s₁.withSlots w (u.onSlot i Slot.landed))
        (countCompletion w p' ((releasePlace tag s).updEntry m e.id (Entry.withPiece k p'))) := by
      have counts (t : State) : countCompletion w p' t = lowerSlotInFlight w i (t.tallied w) := by
        simp only [countCompletion, show p'.target = .slot i from target]
        rfl
      rw [counts, lowerSlotInFlight_frees (s := s₁) slots slot retiring flying waiting]
      refine allocate_allocates (s := s₁.withSlots w _) one₁ ((State.tallied_state _ w).trans live) definition₁
        (State.withSlots_slots ..) unfilled unsealed opened free (fun j below y is => ?_)
      rw [SlotUnit.onSlot_get, if_neg (ne_of_lt below)] at is
      exact lowest j below y is
    refine ⟨_, (completePiece_eq place owner entry piece .done data).trans
      (congrArg Host.Outcome.next (testReset_pieceCompleted (s := releasePlace tag s) running)), ?_⟩
    rw [pieceCompleted_done window]
    generalize countCompletion w p' ((releasePlace tag s).updEntry m e.id (Entry.withPiece k p')) = t at allocates
    have unused : x.landed.inFlight = 0 ∧ x.landed.waiting = 0 := ⟨Nat.sub_eq_zero_of_le flying, waiting⟩
    have settled (n : Fin 16) (y : Entry) (current : s₁.current n = some y) (waits : y.awaitsSlot w = true) :
        (t.updEntry m e.id Entry.settle).current n = t.current n := by
      have filled := (allocates.waits (m := n) (e := y) current waits).1
      rw [filled]
      refine State.current_updEntry_other filled (fun here number => ?_) Entry.settle_calm
      subst here
      obtain rfl := one.of_id ((same m y waits).mp current) listed number.symm
      exact nomatch outside.symm.trans waits
    dsimp only
    split
    · rw [finishRequest_open (e := e.withPiece k p') window (fun h => nomatch closing.symm.trans h.1)]
      split
      · exact allocates.allocated rfl rfl unused same rfl (fun n y current waits => ⟨settled n y current waits, rfl⟩)
      · exact allocates.allocated rfl rfl unused same rfl (fun n y current waits => ⟨settled n y current waits, rfl⟩)
    · exact allocates.allocated rfl rfl unused same rfl (fun _ _ _ _ => ⟨rfl, rfl⟩)

end Sys2Proof
end


section
/-! SUPPORT. A consumer's read of a slotted window (R52, R113 to R116), its view's pin moving by `consumerRead_starts` and
its companions. -/

namespace Sys2Proof.Machine

/-- A consumer's read of a slotted window, once the view unit has answered. -/
theorem mapSlottedRead_consumer {m w : Fin 16} {d : Definition} {u : SlotUnit} {r : Request} {c : Fin 8} {after : View}
    {i : Fin 4} {s t : State} (role : s.role d m = .consumer c)
    (answered : consumerRead w c (firstUnit d r) (lastUnit d r) s = t.updView w c (fun _ => after))
    (viewed : (t.view w c).isSome = true)
    (slot : (match after.state with
      | .pinnedSlot j _ => j
      | _ => u.front) = i) : mapSlottedRead m w d u r s =
      ((enterWaiting m r w .mapped ((cut d r).map (mapToSlot d i)) t).onSlots w
        (fun v => v.onSlot i (fun x => { x with waiting := x.waiting + (cut d r).length }))).updView w c (fun _ => after) := by
  obtain ⟨v, view⟩ := Option.isSome_iff_exists.mp viewed
  have reaches : consumerSlot w c u.front (t.updView w c (fun _ => after)) = i := by
    rw [consumerSlot, State.updView_get, view, ← slot]
    obtain ⟨state, _, _, _⟩ := after
    cases state <;> rfl
  simp only [mapSlottedRead, role, answered, reaches]
  exact captureSlots_same w d r i (enterWaiting m r w .mapped _ (t.updView w c (fun _ => after)))

theorem repin_free_front {w : Fin 16} {held : ViewState} {u : SlotUnit} {s : State}
    (free : held = .unpinned ∨ held = .torn) (slots : s.slots[w] = some u) : repin w held s = pinSlot w u.front s := by
  rcases free with rfl | rfl <;> simp only [repin, pinFront, slots]

theorem repin_front {w : Fin 16} {g : BitVec 32} {u : SlotUnit} {s : State} (slots : s.slots[w] = some u) :
    repin w (.pinnedSlot u.front g) s = s := by
  simp only [repin, slots, if_true]

theorem repin_older {w : Fin 16} {j : Fin 4} {g : BitVec 32} {u : SlotUnit} {s : State} (slots : s.slots[w] = some u)
    (behind : j ≠ u.front) : repin w (.pinnedSlot j g) s = pinSlot w u.front (unpinSlot w j s) := by
  simp only [repin, slots]
  exact if_neg behind.symm

/-- The head request of master `m` is a READ by consumer `c` of a slotted window that maps it. -/
structure SlottedRead (m : Fin 16) (r : Request) (w : Fin 16) (d : Definition) (u : SlotUnit) (c : Fin 8) (b : Binding)
    (v : View) (s : State) : Prop where
  head  : s.windowHead m r w d
  maps  : s.windows[w].state = .live ∨ s.windows[w].state = .halted
  read  : r.kind = .read
  slots : s.slots[w] = some u
  role  : s.role d m = .consumer c
  bound : s.consumers[c] = some b
  view  : s.view w c = some v

namespace SlottedRead

variable {m : Fin 16} {r : Request} {w : Fin 16} {d : Definition} {u : SlotUnit} {c : Fin 8} {b : Binding} {v : View}
  {s : State}

/-- The pin that a frame start or a late pin would make at this moment. -/
def pin (s : State) (w : Fin 16) (u : SlotUnit) : ViewState := .pinnedSlot u.front (s.generation w u.front)

/-- The view after the read. -/
def after (s : State) (w : Fin 16) (u : SlotUnit) (d : Definition) (r : Request) (b : Binding) (v : View) : View :=
  v.afterRead b (pin s w u) (firstUnit d r) (lastUnit d r) s.timebase

/-- The state after the read has entered with its pieces mapped to slot `i`, `f` being done to the slots before. -/
def reached (s : State) (m : Fin 16) (r : Request) (w : Fin 16) (d : Definition) (i : Fin 4) (f : SlotUnit → SlotUnit) :
    State :=
  (s.admitted m r w .mapped ((cut d r).map (mapToSlot d i)) false).onSlots w
    (fun u => (f u).onSlot i (fun x => { x with waiting := x.waiting + (cut d r).length }))

theorem newPin_eq (h : SlottedRead m r w d u c b v s) : newPin w (popIntake m s) = pin s w u := by
  have slots : (popIntake m s).slots[w] = some u := by rw [popIntake_slots]; exact h.slots
  simp only [newPin, slots, popIntake_generation, pin]

theorem view_popped (h : SlottedRead m r w d u c b v s) : (popIntake m s).view w c = some v := by
  rw [popIntake_view]
  exact h.view

/-- The state in which a moved pin is taken in by the slot manager. -/
def entering (m : Fin 16) (w : Fin 16) (u : SlotUnit) (c : Fin 8) (s : State) : State :=
  (popIntake m s).updView w c (fun v => { v with state := pin s w u })

/-- The read of a view that keeps its pin, or has lost it. -/
theorem stays (h : SlottedRead m r w d u c b v s) (calm : ¬ v.starts b (firstUnit d r)) (held : v.state ≠ .unpinned)
    {i : Fin 4} (slot : (match v.state with
      | .pinnedSlot j _ => j
      | _ => u.front) = i) : exec (.classification m) s = .next
        ((reached s m r w d i id).updView w c (fun _ => after s w u d r b v)) := by
  have kept : (after s w u d r b v).state = v.state := (v.afterRead_state ..).2.2 calm held
  have answered := consumerRead_stays (s := popIntake m s) (by rw [popIntake_consumers]; exact h.bound) h.view_popped calm held
    (pin s w u) (lastUnit d r)
  rw [popIntake_timebase] at answered
  rw [classification_slottedRead h.head h.maps h.read h.slots,
    mapSlottedRead_consumer (after := after s w u d r b v) (i := i) (by rw [popIntake_role]; exact h.role) answered
      (by rw [h.view_popped]; rfl) (by rw [kept]; exact slot), enterWaiting_popIntake]
  rfl

/-- The read of a view whose pin moves. -/
theorem moves (h : SlottedRead m r w d u c b v s) (moved : v.starts b (firstUnit d r) ∨ v.state = .unpinned) :
    exec (.classification m) s = .next (((enterWaiting m r w .mapped ((cut d r).map (mapToSlot d u.front))
        (repin w v.state (entering m w u c s))).onSlots w (fun v => v.onSlot u.front
          (fun x => { x with waiting := x.waiting + (cut d r).length }))).updView w c
            (fun _ => after s w u d r b v)) := by
  have bound : (popIntake m s).consumers[c] = some b := by rw [popIntake_consumers]; exact h.bound
  have answered : consumerRead w c (firstUnit d r) (lastUnit d r) (popIntake m s) =
      (repin w v.state (entering m w u c s)).updView w c (fun _ => after s w u d r b v) := by
    have is : movePin w c (popIntake m s) = repin w v.state (entering m w u c s) := by
      rw [movePin_eq h.view_popped, h.newPin_eq]
      rfl
    by_cases starts : v.starts b (firstUnit d r)
    · rw [consumerRead_starts bound h.view_popped starts, is, h.newPin_eq, popIntake_timebase]
      rfl
    · rw [consumerRead_late bound h.view_popped starts (moved.resolve_left starts), is, h.newPin_eq, popIntake_timebase]
      rfl
  have shown : (after s w u d r b v).state = pin s w u := by
    obtain ⟨starting, opening, -⟩ := v.afterRead_state b (pin s w u) (firstUnit d r) (lastUnit d r) s.timebase
    exact moved.elim starting opening
  rw [classification_slottedRead h.head h.maps h.read h.slots]
  refine congrArg _ (mapSlottedRead_consumer (by rw [popIntake_role]; exact h.role) answered ?_ (by rw [shown]; rfl))
  rw [(shifts_repin ..).view, entering, State.updView_get, h.view_popped]
  rfl

/-- The read of a view whose pin moves, the slots being afterwards as `f` makes them. -/
theorem moves_to (h : SlottedRead m r w d u c b v s) (moved : v.starts b (firstUnit d r) ∨ v.state = .unpinned)
    {f : SlotUnit → SlotUnit} (is : repin w v.state (entering m w u c s) = (entering m w u c s).onSlots w f) :
    exec (.classification m) s = .next
      ((reached s m r w d u.front f).updView w c (fun _ => after s w u d r b v)) := by
  rw [h.moves moved, is]
  refine congrArg Host.Outcome.next ?_
  have merged : enterWaiting m r w .mapped ((cut d r).map (mapToSlot d u.front)) ((entering m w u c s).onSlots w f) =
      ((s.admitted m r w .mapped ((cut d r).map (mapToSlot d u.front)) false).onSlots w f).updView w c
        (fun v => { v with state := pin s w u }) := by
    rw [← enterWaiting_popIntake]
    rfl
  rw [merged]
  refine (State.updView_updView (s := ((s.admitted m r w .mapped _ false).onSlots w f).onSlots w _) ..).trans ?_
  rw [State.onSlots_onSlots]
  rfl

/-- The window's slots before the pin moves. -/
theorem entering_slots (h : SlottedRead m r w d u c b v s) : (entering m w u c s).slots[w] = some u :=
  (congrArg (fun t : Vector (Option SlotUnit) 16 => t[w]) (popIntake_slots m s)).trans h.slots

/-- A view after the read may be given as a change of the view before. -/
theorem reached_updView (h : SlottedRead m r w d u c b v s) (i : Fin 4) (f : SlotUnit → SlotUnit) {g : View → View}
    (is : after s w u d r b v = g v) :
    (reached s m r w d i f).updView w c (fun _ => after s w u d r b v) = (reached s m r w d i f).updView w c g :=
  State.updView_congr (v := v) h.view_popped is

end SlottedRead

theorem State.onSlots_id (s : State) (w : Fin 16) : s.onSlots w id = s := by
  simp [State.onSlots]

theorem State.onSlots_get (s : State) (w : Fin 16) (f : SlotUnit → SlotUnit) :
    (s.onSlots w f).slots[w] = s.slots[w].map f := Vector.getElem_set_self ..

namespace SlottedRead

variable {m : Fin 16} {r : Request} {w : Fin 16} {d : Definition} {u : SlotUnit} {c : Fin 8} {b : Binding} {v : View}
  {s : State}

/-- The read of a view whose pin moves from an older slot, which is freed by that and allocated. -/
theorem frees (h : SlottedRead m r w d u c b v s) (one : s.oneWaiting)
    (moved : v.starts b (firstUnit d r) ∨ v.state = .unpinned) {j : Fin 4} {g : BitVec 32} {x y : Slot}
    (held : v.state = .pinnedSlot j g) (behind : j ≠ u.front) (slot : u.slots[j] = some y) (freed : s.frees w u j y)
    (front : u.slots[u.front] = some x) :
    ∃ t u' x', exec (.classification m) s = .next t ∧ s.allocated t w j u d ∧
      t.view w c = some (after s w u d r b v) ∧ t.slots[w] = some u' ∧ u'.slots[u.front] = some x' ∧
      x'.pins = x.pins + 1 := by
  have ⟨⟨_, idle, _⟩, _, _, _, _, definition⟩ := h.head
  have definition' : (entering m w u c s).definition w = some d := (popIntake_definition m s w).trans definition
  have windows : (entering m w u c s).windows = s.windows := popIntake_windows m s
  have entries : (entering m w u c s).responses = s.responses := popIntake_responses m s
  have currents (n : Fin 16) : (entering m w u c s).current n = s.current n := by
    rw [State.current, entries]
    rfl
  have allocates := unpinSlot_frees (s := entering m w u c s) (popIntake_oneWaiting one m) definition' h.entering_slots
    slot behind (by unfold State.frees; rw [windows]; exact freed)
  have runs := h.moves moved
  rw [held, repin_older h.entering_slots behind] at runs
  generalize unpinSlot w j (entering m w u c s) = t at allocates runs
  let pin (u' : SlotUnit) : SlotUnit := u'.onSlot u.front (fun x => { x with pins := x.pins + 1 })
  let expect (u' : SlotUnit) : SlotUnit :=
    u'.onSlot u.front (fun x => { x with waiting := x.waiting + (cut d r).length })
  obtain ⟨u', slots', opens⟩ := allocates.unit
  have unit (v' : SlotUnit) (is : t.slots[w] = some v') : (((enterWaiting m r w .mapped
      ((cut d r).map (mapToSlot d u.front)) (pinSlot w u.front t)).onSlots w expect).updView w c
        (fun _ => after s w u d r b v)).slots[w] = some (expect (pin v')) := by
    refine (State.onSlots_get ..).trans ?_
    have pinned : (enterWaiting m r w .mapped ((cut d r).map (mapToSlot d u.front)) (pinSlot w u.front t)).slots[w] =
        t.slots[w].map pin := State.onSlots_get t w pin
    rw [pinned, is]
    rfl
  have front' : (u.onSlot j Slot.released).slots[u.front] = some x := by
    rw [SlotUnit.onSlot_get, if_neg behind.symm, front]
  obtain ⟨x', hold, slot', copies⟩ := opens.others u.front behind.symm x front'
  refine ⟨_, expect (pin u'), { x' with pins := x'.pins + 1, waiting := x'.waiting + (cut d r).length }, runs, ?_, ?_,
    unit u' slots', ?_, congrArg (· + 1) copies.counts.1⟩
  · refine allocates.allocated_but rfl rfl ⟨freed.2.2.2.1, freed.2.2.2.2.1⟩ (fun n e _ => by
      rw [show ((entering m w u c s).withSlots w (u.onSlot j Slot.released)).current n = s.current n from currents n])
      (fun v' is => ⟨_, unit v' is, rfl, rfl, rfl, ?_⟩) (fun n e current _ => ⟨?_, rfl⟩)
    · exact congrArg (Option.map Slot.blur) (by
        rw [SlotUnit.onSlot_get, if_neg behind, SlotUnit.onSlot_get, if_neg behind])
    · have other : m ≠ n := by
        rintro rfl
        exact nomatch idle.symm.trans ((currents m).symm.trans current)
      refine congrArg (List.find? Entry.isWaiting) (?_ : (upd t.responses m _)[n] = t.responses[n])
      exact upd_ne _ _ other
  · refine (State.updView_get ..).trans ?_
    have shown : t.view w c = (entering m w u c s).view w c := allocates.shifts.view w c
    show (t.view w c).map _ = _
    rw [shown, entering, State.updView_get, h.view_popped]
    rfl
  · rw [SlotUnit.onSlot_get, if_pos rfl, SlotUnit.onSlot_get, if_pos rfl, slot']
    rfl

end SlottedRead

end Sys2Proof.Machine

namespace Sys2Proof
open Machine

/-- Settles O13: the view's pin by `repin`, and what it then shows is the slot that the pieces reach. -/
theorem consumerReadPinsFront : Obligations.ConsumerReadPinsFront := by
  refine ⟨fun m r w d u c b v x g s head open_window read slots role bound view unpinned unmarked slot published => ?_,
    fun m r w d u c b v g k s head open_window read slots role bound source view held generation mark => ?_,
    fun m r w d u c b v s head open_window read slots role bound source view => ?_⟩
  · have h : SlottedRead m r w d u c b v s := ⟨head, open_window, read, slots, role, bound, view⟩
    have generation : s.generation w u.front = g := by
      obtain ⟨state, _, _, _, _⟩ := x
      obtain rfl : state = .published g := published
      simp only [State.generation, State.slot_of slots, slot]
    have pins := h.moves_to (.inr unpinned) (f := fun u' => u'.onSlot u.front (fun x => { x with pins := x.pins + 1 }))
      (repin_free_front (.inl unpinned) h.entering_slots)
    rw [pins, h.reached_updView (g := fun v => { state := .pinnedSlot u.front g
                                                 frames := if b.source = .firstBlock ∧ firstUnit d r = 0
                                                   then v.frames + 1 else v.frames
                                                 mark := if b.source = .firstBlock then some (lastUnit d r) else none
                                                 timer := if b.idle = 0 then v.timer else some s.timebase })]
    · simp only [SlottedRead.reached, SlotUnit.onSlot_onSlot]
    · by_cases source : b.source = .firstBlock
      · by_cases first : firstUnit d r = 0 <;>
          simp [SlottedRead.after, View.afterRead, SlottedRead.pin, unpinned, unmarked, generation, source, first]
      · simp [SlottedRead.after, View.afterRead, SlottedRead.pin, unpinned, unmarked, generation, source]
  · have h : SlottedRead m r w d u c b v s := ⟨head, open_window, read, slots, role, bound, view⟩
    have same := h.reached_updView u.front id (g := fun v => { v with
            frames := if firstUnit d r = 0 ∧ 0 < k then v.frames + 1 else v.frames
            mark := some (if firstUnit d r = 0 ∧ 0 < k then lastUnit d r else max k (lastUnit d r))
            timer := if b.idle = 0 then v.timer else some s.timebase })
    refine Eq.trans ?_ (congrArg Host.Outcome.next (same ?_))
    · by_cases starts : v.starts b (firstUnit d r)
      · exact h.moves_to (.inl starts) (by rw [held, repin_front h.entering_slots, State.onSlots_id])
      · exact h.stays starts (by rw [held]; nofun) (by rw [held])
    · by_cases starts : firstUnit d r = 0 ∧ 0 < k
      · simp [SlottedRead.after, View.afterRead, SlottedRead.pin, held, mark, generation, source, starts]
      · simp [SlottedRead.after, View.afterRead, held, mark, source, starts]
  · have h : SlottedRead m r w d u c b v s := ⟨head, open_window, read, slots, role, bound, view⟩
    intro after reached pinned
    have slots' := h.entering_slots
    have windows : (SlottedRead.entering m w u c s).windows = s.windows := popIntake_windows m s
    refine ⟨fun j g y held behind slot => ?_, fun torn => ?_⟩
    · split
      · next starting =>
        have starts : v.starts b (firstUnit d r) := ⟨source, starting.1, .inr (.inr starting.2)⟩
        refine ⟨fun none_freed => h.moves_to (.inl starts) ?_, fun frees one x front => ?_⟩
        · rw [held, repin_older slots' behind, unpinSlot_freesNone slots' slot behind
            (by unfold State.freesNone; rw [windows]; exact none_freed), State.onSlots_eq slots']
          exact State.withSlots_onSlots ..
        · exact h.frees one (.inl starts) held behind slot frees front
      · next calm =>
        refine h.stays (fun starts => calm ⟨starts.2.1, ?_⟩) (by rw [held]; nofun) (by rw [held])
        rcases starts.2.2 with other | other | marked
        · exact nomatch held.symm.trans other
        · exact nomatch held.symm.trans other
        · exact marked
    · split
      · next first =>
        exact h.moves_to (.inl ⟨source, first, .inr (.inl torn)⟩) (repin_free_front (.inr torn) slots')
      · next later =>
        exact h.stays (fun starts => later starts.2.1) (by rw [torn]; nofun) (by rw [torn])

end Sys2Proof
end


section
/-! SUPPORT. What an allocation does to the slots of its window in any state (R46, R47), and what the work for one window
leaves to the waits and slots of another. -/

namespace Sys2Proof.Machine

/-! ### The slots of an allocation in any state -/

theorem mapWaitingToSlot_expects {m w : Fin 16} {i : Fin 4} {u : SlotUnit} {s : State} (slots : s.slots[w] = some u) :
    (∃ n u', (mapWaitingToSlot m w i s).slots[w] = some u' ∧ (u.onSlot i (Slot.expect n)).Copies u') ∧
      (mapWaitingToSlot m w i s).copier.jobs = s.copier.jobs := by
  have idle : ∃ n u', s.slots[w] = some u' ∧ (u.onSlot i (Slot.expect n)).Copies u' :=
    ⟨0, u, slots, by rw [SlotUnit.onSlot_expect_zero]; exact .refl u⟩
  unfold mapWaitingToSlot
  split
  · next e d k _ _ _ =>
    extract_lets pieces t
    have captured : captureSlots w pieces (stopTimer m t) =
        (stopTimer m t).withSlots w (u.onSlot i (Slot.expect (cut d e.request).length)) := by
      rw [captureSlots_writes, captureSlots_same]
      exact State.onSlots_eq (s := stopTimer m t) slots _
    rw [captured]
    obtain ⟨u', slots', copies⟩ := (chooses_listFirstNeedsCopy w i pieces ((stopTimer m t).withSlots w
      (u.onSlot i (Slot.expect (cut d e.request).length)))).unit (State.withSlots_slots ..)
    exact ⟨⟨_, u', slots', copies⟩, listFirstNeedsCopy_jobs ..⟩
  · exact ⟨idle, rfl⟩

/-- `t` is `s` but for pieces its slot waits for. -/
def Expects (w : Fin 16) (i : Fin 4) (u : SlotUnit) (s t : State) : Prop :=
  (∃ n u', t.slots[w] = some u' ∧ (u.onSlot i (Slot.expect n)).Copies u') ∧ t.copier.jobs = s.copier.jobs

theorem forMasters_keeps (P : State → Prop) {f : Fin 16 → State → State} {s : State} (step : ∀ m t, P t → P (f m t))
    (start : P s) : P (forMasters f s) := by
  have folded : ∀ (l : List (Fin 16)) t, P t → P (l.foldl (fun s m => f m s) t) := by
    intro l
    induction l with
    | nil => exact fun t h => h
    | cons m l ih => exact fun t h => ih _ (step m t h)
  exact folded _ s start

theorem mapSlotWaits_expects {w : Fin 16} {i : Fin 4} {u : SlotUnit} {s : State} (slots : s.slots[w] = some u) :
    Expects w i u s (mapSlotWaits w i s) := by
  have start : Expects w i u s s := ⟨⟨0, u, slots, by rw [SlotUnit.onSlot_expect_zero]; exact .refl u⟩, rfl⟩
  unfold mapSlotWaits
  refine forMasters_keeps (Expects w i u s) (fun m t h => ?_) start
  split
  · exact h
  split
  · obtain ⟨⟨n, u', slots', copies⟩, jobs⟩ := h
    obtain ⟨⟨n', u'', slots'', copies'⟩, jobs'⟩ := mapWaitingToSlot_expects (m := m) (i := i) slots'
    refine ⟨⟨n + n', u'', slots'', ?_⟩, jobs'.trans jobs⟩
    rw [← SlotUnit.onSlot_expect_expect]
    exact (copies.onSlot_expect i n').trans copies'
  · exact h

theorem allocateSlot_opens {w : Fin 16} {d : Definition} {u : SlotUnit} {i : Fin 4} {x : Slot} {s : State}
    (slots : s.slots[w] = some u) (slot : u.slots[i] = some x) :
    (∃ n u', (allocateSlot w d u i s).slots[w] = some u' ∧ u.Opens d i x n u') ∧
      (s.link.part = .running → d.isBackfill = true → (allocateSlot w d u i s).copier.jobs[w] = some i) := by
  obtain ⟨t, is, chooses, job⟩ := allocateSlot_chooses w d u i slots
  obtain ⟨u₀, slots₀, copies₀⟩ := chooses.unit (State.withSlots_slots ..)
  obtain ⟨hold, slot₁⟩ := SlotUnit.opened_slot (d := d) (i := i) slot
  rw [if_pos rfl] at slot₁
  obtain ⟨x₀, slot₀, copies_x⟩ := copies₀.slot slot₁
  obtain ⟨⟨n, u', slots', copies'⟩, jobs⟩ := mapSlotWaits_expects (i := i) slots₀
  rw [is]
  exact ⟨⟨n, u', slots', SlotUnit.opens_of_copies copies₀ copies' slot₀ ⟨hold, copies_x⟩⟩, fun running backfill =>
    (congrArg (fun jobs : Vector _ 16 => jobs[w]) jobs).trans (job running backfill)⟩

theorem SlotUnit.lowestFree_free {u : SlotUnit} {i : Fin 4} (lowest : u.lowestFree = some i) :
    ∃ x, u.slots[i] = some x ∧ x.state = .free := by
  unfold SlotUnit.lowestFree at lowest
  have free := List.find?_some lowest
  cases slot : u.slots[i] with
  | none => simp only [slot, Option.any_none, Bool.false_eq_true] at free
  | some x => exact ⟨x, rfl, by simpa only [slot, Option.any_some, decide_eq_true_eq] using free⟩

/-- An allocation attempt does nothing, or opens a FREE slot of a LIVE window with neither a FILLING nor a SEALED one. -/
theorem allocate_cases {w : Fin 16} {u : SlotUnit} {s : State} (slots : s.slots[w] = some u) : allocate w s = s ∨
    ∃ d i x n u', s.windows[w].state = .live ∧ s.definition w = some d ∧ u.filling = none ∧ u.sealed = none ∧
      u.slots[(i : Fin 4)] = some x ∧ x.state = .free ∧ (allocate w s).slots[w] = some u' ∧ u.Opens d i x n u' := by
  unfold allocate
  split
  · exact .inl rfl
  next live =>
  split
  next d v definition unit =>
    obtain rfl := Option.some.inj (slots.symm.trans unit)
    split
    · exact .inl rfl
    next open' =>
    obtain ⟨unfilled, unsealed⟩ := not_or.mp open'
    split
    · exact .inl rfl
    next i lowest =>
    obtain ⟨x, slot, free⟩ := SlotUnit.lowestFree_free lowest
    obtain ⟨⟨n, u', slots', opens⟩, -⟩ := allocateSlot_opens (d := d) slots slot
    exact .inr ⟨d, i, x, n, u', not_not.mp live, definition, not_not.mp unfilled, not_not.mp unsealed, slot,
      free, slots', opens⟩
  · exact .inl rfl

/-- An allocation of the lowest-numbered FREE slot. -/
theorem allocate_opens {w : Fin 16} {d : Definition} {u : SlotUnit} {i : Fin 4} {x : Slot} {s : State}
    (live : s.windows[w].state = .live) (definition : s.definition w = some d) (slots : s.slots[w] = some u)
    (unfilled : u.filling = none) (unsealed : u.sealed = none) (slot : u.slots[i] = some x) (free : x.state = .free)
    (lowest : ∀ j < i, ∀ y, u.slots[j] = some y → y.state ≠ .free) :
    (∃ n u', (allocate w s).slots[w] = some u' ∧ u.Opens d i x n u') ∧
      (s.link.part = .running → d.isBackfill = true → (allocate w s).copier.jobs[w] = some i) := by
  rw [allocate_slot live definition slots unfilled unsealed (SlotUnit.lowestFree_eq_some slot free lowest)]
  exact allocateSlot_opens slots slot

/-- What every allocation attempt leaves of a window's slots: the front, the generation, and of each slot its pins and,
unless it is FREE or has a block map, its state. -/
theorem allocate_keeps {w : Fin 16} {u : SlotUnit} {s : State} (slots : s.slots[w] = some u) :
    ∃ u', (allocate w s).slots[w] = some u' ∧ u'.front = u.front ∧ u'.counter = u.counter ∧ u'.sealed = u.sealed ∧
      ∀ (j : Fin 4) x, u.slots[j] = some x → ∃ x', u'.slots[j] = some x' ∧ x'.pins = x.pins ∧
        (x.state ≠ .free → x.work = none → x'.state = x.state) := by
  rcases allocate_cases slots with idle | ⟨d, i, x, n, u', -, -, -, -, slot, free, slots', opens⟩
  · exact ⟨u, by rw [idle]; exact slots, rfl, rfl, rfl, fun j x is => ⟨x, is, rfl, fun _ _ => rfl⟩⟩
  · refine ⟨u', slots', opens.front, opens.counter, opens.sealed, fun j y is => ?_⟩
    by_cases same : j = i
    · subst same
      obtain rfl := Option.some.inj (slot.symm.trans is)
      obtain ⟨x', k', slot', -, -, pins, -⟩ := opens.slot
      exact ⟨x', slot', pins, fun used => absurd free used⟩
    · obtain ⟨y', hold, slot', copies⟩ := opens.others j same y is
      exact ⟨y', slot', copies.counts.1, fun _ none => by rw [copies.same none]⟩

end Sys2Proof.Machine
end


section
/-! SUPPORT. What the work for one window leaves to the waiting requests of another, and one window's turn among all the
windows of an event. -/

namespace Sys2Proof.Machine

/-! ### The waits of another window -/

/-- From `s` to `t` no master's waiting request or stall timer changed but where it is one of window `v`. -/
def Aside (v : Fin 16) (s t : State) : Prop := ∀ m : Fin 16,
  (t.current m = s.current m ∧ t.stallTimers[m] = s.stallTimers[m]) ∨
  ((∃ e, s.current m = some e ∧ e.window = some v) ∧ ∀ e, t.current m = some e → e.window = some v)

namespace Aside

theorem of_same {v : Fin 16} {s t : State} (responses : t.responses = s.responses) (timers : t.stallTimers = s.stallTimers) :
    Aside v s t := fun m => .inl ⟨congrArg (fun r : Vector (List Entry) 16 => r[m].find? Entry.isWaiting) responses,
  congrArg (fun x : Vector (Option Timer) 16 => x[m]) timers⟩

theorem refl (v : Fin 16) (s : State) : Aside v s s := of_same rfl rfl

theorem trans {v : Fin 16} {s t u : State} (a : Aside v s t) (b : Aside v t u) : Aside v s u := by
  intro m
  rcases a m with ⟨current, timer⟩ | ⟨before, after⟩
  · rcases b m with ⟨current', timer'⟩ | ⟨⟨e, is, window⟩, after⟩
    · exact .inl ⟨current'.trans current, timer'.trans timer⟩
    · exact .inr ⟨⟨e, current ▸ is, window⟩, after⟩
  · rcases b m with ⟨current', -⟩ | ⟨-, after'⟩
    · exact .inr ⟨before, fun e is => after e (current' ▸ is)⟩
    · exact .inr ⟨before, after'⟩

theorem chooses {v : Fin 16} {s t : State} (h : Chooses s t) : Aside v s t := .of_same h.responses h.stallTimers

/-- A waiting request of the window that changes. -/
theorem one {v m : Fin 16} {e : Entry} {s t : State} (one : s.oneWaiting) (current : s.current m = some e)
    (window : e.window = some v) {f : Entry → Entry} (keeps : (f e).window = e.window) {x : Option Timer}
    (responses : t.responses = (s.updEntry m e.id f).responses) (timers : t.stallTimers = s.stallTimers.set m x) :
    Aside v s t := by
  intro n
  have same : t.current n = (s.updEntry m e.id f).current n :=
    congrArg (fun r : Vector (List Entry) 16 => r[n].find? Entry.isWaiting) responses
  by_cases here : n = m
  · subst here
    refine .inr ⟨⟨e, current, window⟩, fun y is => ?_⟩
    rw [same, one.current_updEntry current f] at is
    split at is
    · exact Option.some.inj is ▸ keeps.trans window
    · cases is
  · refine .inl ⟨same.trans (State.current_updEntry_ne s here ..), ?_⟩
    rw [timers]
    exact Vector.getElem_set_ne _ _ (fun h => here (Fin.ext h.symm))

/-- A waiting request of another window, its stall timer with it. -/
theorem kept {v w : Fin 16} {s t : State} (h : Aside v s t) (other : v ≠ w) {m : Fin 16} {e : Entry}
    (current : s.current m = some e) (window : e.window = some w) :
    t.current m = some e ∧ t.stallTimers[m] = s.stallTimers[m] := by
  rcases h m with ⟨same, timer⟩ | ⟨⟨x, is, window'⟩, -⟩
  · exact ⟨same.trans current, timer⟩
  · obtain rfl := Option.some.inj (current.symm.trans is)
    exact absurd (Option.some.inj (window'.symm.trans window)) other

/-- No waiting request of another window is new. -/
theorem known {v w : Fin 16} {s t : State} (h : Aside v s t) (other : v ≠ w) {m : Fin 16} {e : Entry}
    (current : t.current m = some e) (window : e.window = some w) : s.current m = some e := by
  rcases h m with ⟨same, -⟩ | ⟨-, after⟩
  · exact same.symm.trans current
  · exact absurd (Option.some.inj ((after e current).symm.trans window)) other

end Aside

theorem aside_mapWaitingToSlot {m w : Fin 16} {i : Fin 4} {s : State} (one : s.oneWaiting)
    (ours : ∀ e, s.current m = some e → e.window = some w) : Aside w s (mapWaitingToSlot m w i s) := by
  unfold mapWaitingToSlot
  split
  · next e d k current _ _ =>
    extract_lets pieces t
    refine .trans (.one (t := captureSlots w pieces (stopTimer m t)) one current (ours e current)
      (f := fun x => { x with stage := .waiting .mapped, pieces := pieces, closing := closesSlotted d e.request }) rfl (x := none)
      ?_ ?_)
      (.chooses (chooses_listFirstNeedsCopy ..))
    · rw [captureSlots_writes, captureSlots_same]
      rfl
    · rw [captureSlots_writes, captureSlots_same]
      rfl
  · exact .refl w s

theorem aside_mapSlotWaits {w : Fin 16} {i : Fin 4} {s : State} (one : s.oneWaiting) :
    Aside w s (mapSlotWaits w i s) := by
  unfold mapSlotWaits
  refine (forMasters_keeps (fun t => t.oneWaiting ∧ Aside w s t) (fun m t h => ?_) ⟨one, .refl w s⟩).2
  obtain ⟨one', aside⟩ := h
  split
  · exact ⟨one', aside⟩
  next e current =>
  split
  · next waits =>
    refine ⟨one'.works (works_mapWaitingToSlot ..), aside.trans (aside_mapWaitingToSlot one' (fun x is => ?_))⟩
    exact Option.some.inj (current.symm.trans is) ▸ waits.1
  · exact ⟨one', aside⟩

theorem aside_allocateSlot {w : Fin 16} {d : Definition} {u : SlotUnit} {i : Fin 4} {s : State} (one : s.oneWaiting)
    (slots : s.slots[w] = some u) : Aside w s (allocateSlot w d u i s) := by
  obtain ⟨t, is, chooses, -⟩ := allocateSlot_chooses w d u i slots
  have start : Aside w s t := .trans (t := s.withSlots w (.opened d i u)) (.of_same rfl rfl) (.chooses chooses)
  rw [is]
  refine start.trans (aside_mapSlotWaits (fun m => ?_))
  rw [chooses.responses, chooses.nextId]
  exact one m

theorem aside_allocate {w : Fin 16} {s : State} (one : s.oneWaiting) : Aside w s (allocate w s) := by
  unfold allocate
  split
  · exact .refl w s
  split
  · split
    · exact .refl w s
    split
    · exact .refl w s
    · exact aside_allocateSlot one ‹_›
  · exact .refl w s

theorem aside_retire {w : Fin 16} {i : Fin 4} {s : State} (one : s.oneWaiting) : Aside w s (retire w i s) := by
  unfold retire
  split
  · split
    · split
      · exact .trans (.of_same rfl rfl) (aside_allocate (s := s.updSlot w i Slot.leave) one)
      · exact .of_same rfl rfl
    · exact .refl w s
  · exact .refl w s

theorem aside_unpinSlot {w : Fin 16} {i : Fin 4} {s : State} (one : s.oneWaiting) : Aside w s (unpinSlot w i s) :=
  .trans (.of_same rfl rfl) (aside_retire (s := s.updSlot w i (fun x => { x with pins := x.pins - 1 })) one)

theorem aside_seen {w : Fin 16} {s : State} (one : s.oneWaiting) : Aside w s (s.seen w) := by
  intro m
  have timer : (s.seen w).stallTimers[m] =
      if s.responses[m].any (Entry.awaitsTarget w) then none else s.stallTimers[m] := by simp [State.seen]
  have calm (fails : ∀ e, s.current m = some e → e.awaitsTarget w = false) :
      (s.seen w).current m = s.current m ∧ (s.seen w).stallTimers[m] = s.stallTimers[m] := by
    have none_passes := one.none_passes (fun x h => (Entry.awaitsTarget_iff.mp h).1) fails
    refine ⟨?_, timer.trans (if_neg (fun h => ?_))⟩
    · rw [State.seen_current]
      cases is : s.current m with
      | none => rfl
      | some e => exact congrArg some (if_neg (by rw [fails e is]; exact Bool.false_ne_true))
    · obtain ⟨e, listed, awaits⟩ := List.any_eq_true.mp h
      exact Bool.false_ne_true ((none_passes e listed).symm.trans awaits)
  cases current : s.current m with
  | none => exact .inl (current ▸ calm (fun e is => nomatch current.symm.trans is))
  | some e =>
    by_cases awaits : e.awaitsTarget w = true
    · refine .inr ⟨⟨e, rfl, (Entry.awaitsTarget_iff.mp awaits).2.1⟩, fun y is => ?_⟩
      rw [State.seen_current, current, Option.map_some, if_pos awaits] at is
      exact Option.some.inj is ▸ (Entry.awaitsTarget_iff.mp awaits).2.1
    · refine .inl (current ▸ calm (fun y is => ?_))
      exact Option.some.inj (current.symm.trans is) ▸ Bool.eq_false_iff.mpr awaits

theorem aside_releaseVisibility {w : Fin 16} {s : State} (one : s.oneWaiting) : Aside w s (releaseVisibility w s) := by
  cases definition : s.definition w with
  | none =>
    rw [show releaseVisibility w s = s by rw [releaseVisibility, definition]]
    exact .refl w s
  | some d =>
    cases rolls : s.rolls[w] with
    | none =>
      rw [show releaseVisibility w s = s by rw [releaseVisibility, definition, rolls]]
      exact .refl w s
    | some u =>
      rw [releaseVisibility_eq one definition rolls]
      split
      · exact aside_seen one
      · exact .refl w s

theorem aside_leaveSeeing {w : Fin 16} {s : State} (one : s.oneWaiting) : Aside w s (leaveSeeing w s) :=
  .trans (.of_same rfl rfl)
    (aside_releaseVisibility (s := s.updRoll w (fun u => { u with seeing := u.seeing - 1 })) one)

theorem aside_repin {w : Fin 16} {held : ViewState} {s : State} (one : s.oneWaiting) : Aside w s (repin w held s) := by
  unfold repin
  split
  · split
    · split
      · exact .refl w s
      · exact (aside_unpinSlot one).trans (.of_same rfl rfl)
    · exact .refl w s
  · split
    · exact aside_leaveSeeing one
    · exact .refl w s
  all_goals
    unfold pinFront
    split
    · exact .of_same rfl rfl
    · exact .refl w s

theorem aside_frameStart {w : Fin 16} {c : Fin 8} {b : Binding} {v : View} {s : State} (one : s.oneWaiting)
    (bound : s.consumers[c] = some b) (view : s.view w c = some v) : Aside w s (frameStart w c s) := by
  rw [frameStart_eq bound view, movePin_eq view]
  exact (Aside.of_same rfl rfl).trans
    ((aside_repin (s := s.updView w c (fun v => { v with state := newPin w s })) one).trans (.of_same rfl rfl))

end Sys2Proof.Machine
end


section
/-! SUPPORT. A rising edge on a frame line, one window's turn among the windows (R108, R111, R112). -/

namespace Sys2Proof.Machine

/-! ### One window's turn -/

/-- From `s` to `t` window `w` and what its work reads stayed as they were, but for block maps. -/
structure Around (w : Fin 16) (s t : State) : Prop where
  windows   : t.windows = s.windows
  consumers : t.consumers = s.consumers
  timebase  : t.timebase = s.timebase
  slots     : t.slots[w].map SlotUnit.blur = s.slots[w].map SlotUnit.blur
  rolls     : t.rolls[w] = s.rolls[w]
  views     : t.views[w] = s.views[w]
  one       : s.oneWaiting → t.oneWaiting
  kept      : s.oneWaiting → ∀ m e, s.current m = some e → e.window = some w →
    t.current m = some e ∧ t.stallTimers[m] = s.stallTimers[m]
  known     : s.oneWaiting → ∀ m e, t.current m = some e → e.window = some w → s.current m = some e

namespace Around

theorem refl (w : Fin 16) (s : State) : Around w s s :=
  ⟨rfl, rfl, rfl, rfl, rfl, rfl, id, fun _ _ _ h _ => ⟨h, rfl⟩, fun _ _ _ h _ => h⟩

theorem trans {w : Fin 16} {s t u : State} (a : Around w s t) (b : Around w t u) : Around w s u where
  windows := b.windows.trans a.windows
  consumers := b.consumers.trans a.consumers
  timebase := b.timebase.trans a.timebase
  slots := b.slots.trans a.slots
  rolls := b.rolls.trans a.rolls
  views := b.views.trans a.views
  one := fun h => b.one (a.one h)
  kept := fun h m e current window =>
    have ⟨current', timer⟩ := a.kept h m e current window
    have ⟨current'', timer'⟩ := b.kept (a.one h) m e current' window
    ⟨current'', timer'.trans timer⟩
  known := fun h m e current window => a.known h m e (b.known (a.one h) m e current window) window

theorem view {w : Fin 16} {s t : State} (h : Around w s t) (c : Fin 8) : t.view w c = s.view w c :=
  congrArg (fun v : Vector (Option View) 8 => v[c]) h.views

theorem definition {w : Fin 16} {s t : State} (h : Around w s t) (v : Fin 16) : t.definition v = s.definition v :=
  by rw [State.definition, h.windows]; rfl

end Around

/-- Window `w` has its turn in a state that the turns before it leave as it was for `w`, and so do the turns after it. -/
theorem forWindows_turn {P : State → Prop} {f : Fin 16 → State → State} {w : Fin 16} {s : State} (start : P s)
    (keeps : ∀ v t, P t → P (f v t)) (others : ∀ v t, v ≠ w → P t → Around w t (f v t)) :
    ∃ t, P t ∧ Around w s t ∧ Around w (f w t) (forWindows f s) := by
  have run (l : List (Fin 16)) (t : State) (h : P t) (apart : w ∉ l) :
      P (l.foldl (fun t v => f v t) t) ∧ Around w t (l.foldl (fun t v => f v t) t) := by
    induction l generalizing t with
    | nil => exact ⟨h, .refl w t⟩
    | cons v l ih =>
      obtain ⟨other, apart⟩ := not_or.mp (mt List.mem_cons.mpr apart)
      obtain ⟨h', around⟩ := ih (f v t) (keeps v t h) apart
      exact ⟨h', (others v t (Ne.symm other) h).trans around⟩
  obtain ⟨before, after, split⟩ := List.append_of_mem (mem_windowNumbers w)
  have nodup : (before ++ w :: after).Nodup := split ▸ (by decide : windowNumbers.Nodup)
  obtain ⟨-, nodup', apart⟩ := List.nodup_append.mp nodup
  obtain ⟨h, around⟩ := run before s start (fun listed => apart w listed w List.mem_cons_self rfl)
  obtain ⟨-, around'⟩ := run after (f w (before.foldl (fun t v => f v t) s)) (keeps w _ h) (List.nodup_cons.mp nodup').1
  refine ⟨_, h, around, ?_⟩
  rw [forWindows, split, List.foldl_append, List.foldl_cons]
  exact around'

/-! ### Frame starts -/

/-- The turn of window `v` in a rising edge on FRMc. -/
def frameTurn (c : Fin 8) (v : Fin 16) (t : State) : State :=
  if takesFrames t.windows[v].state = true ∧ (t.view v c).isSome = true then frameStart v c t else t

theorem frameLine_eq {c : Fin 8} {b : Binding} {s : State} (running : s.link.part = .running)
    (bound : s.consumers[c] = some b) (line : b.source = .line) : frameLine c s = forWindows (frameTurn c) s := by
  unfold frameLine
  rw [bound]
  exact if_pos ⟨line, running⟩

theorem takesFrames_iff {x : WinState} : takesFrames x = true ↔ x = .live ∨ x = .halted := by
  simp [takesFrames]

theorem frameStart_frame {w : Fin 16} {c : Fin 8} {b : Binding} {v : View} {s : State} (bound : s.consumers[c] = some b)
    (view : s.view w c = some v) : (frameStart w c s).windows = s.windows ∧ (frameStart w c s).consumers = s.consumers ∧
      (frameStart w c s).timebase = s.timebase := by
  rw [frameStart_eq bound view, movePin_eq view]
  have frame := shifts_repin w v.state (s.updView w c (fun v => { v with state := newPin w s }))
  exact ⟨frame.windows, frame.consumers, frame.timebase⟩

theorem frameTurn_consumers {c : Fin 8} {b : Binding} {v : Fin 16} {t : State} (bound : t.consumers[c] = some b) :
    (frameTurn c v t).consumers[c] = some b := by
  unfold frameTurn
  split
  · next starts =>
    obtain ⟨x, view⟩ := Option.isSome_iff_exists.mp starts.2
    exact (congrArg (fun x : Vector (Option Binding) 8 => x[c]) (frameStart_frame bound view).2.1).trans bound
  · exact bound

theorem frameTurn_around {c : Fin 8} {b : Binding} {v w : Fin 16} {t : State} (other : v ≠ w)
    (bound : t.consumers[c] = some b) : Around w t (frameTurn c v t) := by
  unfold frameTurn
  split
  · next starts =>
    obtain ⟨x, view⟩ := Option.isSome_iff_exists.mp starts.2
    obtain ⟨windows, consumers, timebase⟩ := frameStart_frame bound view
    have local' := local_frameStart v c t
    exact ⟨windows, consumers, timebase, local'.slots w other.symm, local'.rolls w other.symm, local'.views w other.symm,
      fun one => one.works (works_frameStart ..),
      fun one m e current window => (aside_frameStart one bound view).kept other current window,
      fun one m e current window => (aside_frameStart one bound view).known other current window⟩
  · exact .refl w t

/-- Window `w` in a rising edge on FRMc. -/
theorem frameLine_turn {c : Fin 8} {b : Binding} {s : State} (running : s.link.part = .running)
    (bound : s.consumers[c] = some b) (line : b.source = .line) (w : Fin 16) :
    ∃ t, t.consumers[c] = some b ∧ Around w s t ∧ Around w (frameTurn c w t) (frameLine c s) := by
  rw [frameLine_eq running bound line]
  exact forWindows_turn bound (fun v t => frameTurn_consumers) (fun v t other => frameTurn_around other)

/-- The frame start of window `w` in a rising edge on FRMc. -/
theorem frameLine_starts {w : Fin 16} {c : Fin 8} {b : Binding} {v : View} {s : State} (running : s.link.part = .running)
    (bound : s.consumers[c] = some b) (line : b.source = .line) (view : s.view w c = some v)
    (takes : s.windows[w].state = .live ∨ s.windows[w].state = .halted) :
    ∃ t, Around w s t ∧ Around w ((repin w v.state (t.updView w c (fun v => { v with state := newPin w t }))).updView w c
      (fun _ => { state := newPin w t, frames := v.frames + 1, mark := none
                  timer := if b.idle = 0 then v.timer else some s.timebase })) (frameLine c s) := by
  obtain ⟨t, bound', around, around'⟩ := frameLine_turn running bound line w
  have view' := (around.view c).trans view
  refine ⟨t, around, ?_⟩
  unfold frameTurn at around'
  rwa [if_pos ⟨by rw [around.windows]; exact takesFrames_iff.mpr takes, by rw [view']; rfl⟩, frameStart_eq bound' view',
    movePin_eq view', around.timebase] at around'

/-! ### The slots seen without their block maps -/

theorem SlotUnit.of_blur {u u' : SlotUnit} (h : u'.blur = u.blur) : u'.filling = u.filling ∧ u'.sealed = u.sealed ∧
    u'.front = u.front ∧ u'.counter = u.counter ∧
    ∀ j : Fin 4, u'.slots[j].map Slot.blur = u.slots[j].map Slot.blur := by
  simp only [SlotUnit.blur, SlotUnit.mk.injEq] at h
  obtain ⟨slots, counter, front, filling, sealed⟩ := h
  refine ⟨filling, sealed, front, counter, fun j => ?_⟩
  have cell := congrArg (fun x : Vector (Option Slot) 4 => x[j]) slots
  simpa using cell

/-- A slot without a block map is seen whole. -/
theorem Slot.same_of_blur {x x' : Slot} (h : x'.blur = x.blur) (none : x.work = none) : x' = x := by
  obtain ⟨state, _, _, _, _⟩ := x
  obtain ⟨state', _, _, _, _⟩ := x'
  cases state <;> cases state' <;> simp_all [Slot.blur, Slot.updWork, Slot.work]

theorem Slot.work_of_published {x : Slot} (h : x.isPublished = true) : x.work = none := by
  obtain ⟨state, _, _, _, _⟩ := x
  cases state <;> simp_all [Slot.isPublished, Slot.work]

theorem State.generation_of_blur (s : State) (w : Fin 16) (i : Fin 4) : s.generation w i =
    match (s.slot w i).map Slot.blur with
    | some { state := .published g, .. } => g
    | _ => 0 := by
  unfold State.generation
  cases s.slot w i with
  | none => rfl
  | some x =>
    obtain ⟨state, _, _, _, _⟩ := x
    cases state <;> rfl

namespace Around

theorem unit {w : Fin 16} {s t : State} (h : Around w s t) {u : SlotUnit} (slots : s.slots[w] = some u) :
    ∃ u', t.slots[w] = some u' ∧ u'.blur = u.blur := by
  have blurred := h.slots
  rw [slots] at blurred
  exact Option.map_eq_some_iff.mp blurred

theorem noSlots {w : Fin 16} {s t : State} (h : Around w s t) (slots : s.slots[w] = none) : t.slots[w] = none := by
  have blurred := h.slots
  rw [slots] at blurred
  exact Option.map_eq_none_iff.mp blurred

theorem generation {w : Fin 16} {s t : State} (h : Around w s t) {u : SlotUnit} (slots : s.slots[w] = some u)
    (i : Fin 4) : t.generation w i = s.generation w i := by
  obtain ⟨u', slots', blurred⟩ := h.unit slots
  rw [State.generation_of_blur, State.generation_of_blur, State.slot_of slots', State.slot_of slots,
    (SlotUnit.of_blur blurred).2.2.2.2 i]

theorem newPin_slotted {w : Fin 16} {s t : State} (h : Around w s t) {u : SlotUnit} (slots : s.slots[w] = some u) :
    newPin w t = .pinnedSlot u.front (s.generation w u.front) := by
  obtain ⟨u', slots', blurred⟩ := h.unit slots
  simp only [newPin, slots', (SlotUnit.of_blur blurred).2.2.1, h.generation slots]

theorem newPin_rolling {w : Fin 16} {s t : State} (h : Around w s t) {u : RollState} (slots : s.slots[w] = none)
    (rolls : s.rolls[w] = some u) : newPin w t = .pinnedOrigin u.origin 0 := by
  simp only [newPin, h.noSlots slots, h.rolls, rolls]

end Around

/-! ### Pins -/

/-- A released pin is counted off, whatever becomes of the slot. -/
theorem unpinSlot_keeps {w : Fin 16} {i : Fin 4} {u : SlotUnit} {x : Slot} {s : State} (slots : s.slots[w] = some u)
    (slot : u.slots[i] = some x) (behind : i ≠ u.front) : ∃ u', (unpinSlot w i s).slots[w] = some u' ∧
      u'.front = u.front ∧ ∀ (j : Fin 4) y, u.slots[j] = some y → ∃ y', u'.slots[j] = some y' ∧
        y'.pins = if j = i then y.pins - 1 else y.pins := by
  have here (j : Fin 4) (y : Slot) (is : u.slots[j] = some y) :
      ∃ y', (u.onSlot i Slot.released).slots[j] = some y' ∧ y'.pins = if j = i then y.pins - 1 else y.pins := by
    rw [SlotUnit.onSlot_get]
    split
    · next same =>
      subst same
      exact ⟨y.released, by rw [is]; rfl, rfl⟩
    · exact ⟨y, is, rfl⟩
  have simple : ∃ u', (s.withSlots w (u.onSlot i Slot.released)).slots[w] = some u' ∧ u'.front = u.front ∧
      ∀ (j : Fin 4) y, u.slots[j] = some y → ∃ y', u'.slots[j] = some y' ∧
        y'.pins = if j = i then y.pins - 1 else y.pins := ⟨_, State.withSlots_slots .., rfl, here⟩
  by_cases retires : x.retires
  · rw [unpinSlot_retires slots slot retires behind]
    split
    · obtain ⟨u', slots', front, -, -, kept⟩ := allocate_keeps (s := s.withSlots w (u.onSlot i Slot.released))
        (State.withSlots_slots ..)
      refine ⟨u', slots', front, fun j y is => ?_⟩
      obtain ⟨y', slot', pins⟩ := here j y is
      obtain ⟨y'', slot'', pins', -⟩ := kept j y' slot'
      exact ⟨y'', slot'', pins'.trans pins⟩
    · exact simple
  · rw [unpinSlot_stays slots slot retires]
    exact simple

/-- The release of a pin on a slot that is not there. -/
theorem unpinSlot_absent {w : Fin 16} {i : Fin 4} {u : SlotUnit} {s : State} (slots : s.slots[w] = some u)
    (slot : u.slots[i] = none) : unpinSlot w i s = s := by
  have idle : u.onSlot i (fun x => { x with pins := x.pins - 1 }) = id u := by
    refine SlotUnit.ext_slots (fun j => ?_) rfl rfl rfl rfl
    rw [SlotUnit.onSlot_get]
    split
    · next same =>
      subst same
      show Option.map _ u.slots[j] = u.slots[j]
      rw [slot]
      rfl
    · rfl
  have same : s.updSlot w i (fun x => { x with pins := x.pins - 1 }) = s := by
    rw [State.updSlot_onSlots, State.onSlots_eq slots, idle, ← State.onSlots_eq slots, State.onSlots_id]
  unfold unpinSlot retire
  rw [same, slots, State.slot_of slots, slot]


/-- What a moved pin makes of the pin counts of a slotted window (R55, R112). -/
theorem repin_pins {w : Fin 16} {v : View} {u : SlotUnit} {s : State} (slots : s.slots[w] = some u)
    (slotted : ∀ o lag, v.state ≠ .pinnedOrigin o lag) : ∃ u', (repin w v.state s).slots[w] = some u' ∧
      ∀ (i : Fin 4) x, u.slots[i] = some x → ∃ x', u'.slots[i] = some x' ∧
        x'.pins = if v.pinsSlot i = true ∧ i ≠ u.front then x.pins - 1
          else if i = u.front ∧ v.pinsSlot i = false then x.pins + 1 else x.pins := by
  have pinned {t : State} {u' : SlotUnit} (slots' : t.slots[w] = some u') :
      (pinSlot w u.front t).slots[w] = some (u'.onSlot u.front (fun x => { x with pins := x.pins + 1 })) := by
    rw [pinSlot, State.updSlot_onSlots, State.onSlots_get, slots']
    rfl
  have front_only (free : v.state = .unpinned ∨ v.state = .torn) (unheld : ∀ i, v.pinsSlot i = false) :
      ∃ u', (repin w v.state s).slots[w] = some u' ∧ ∀ (i : Fin 4) x, u.slots[i] = some x → ∃ x', u'.slots[i] = some x' ∧
        x'.pins = if v.pinsSlot i = true ∧ i ≠ u.front then x.pins - 1
          else if i = u.front ∧ v.pinsSlot i = false then x.pins + 1 else x.pins := by
    rw [repin_free_front free slots]
    refine ⟨_, pinned slots, fun i x slot => ?_⟩
    rw [SlotUnit.onSlot_get, slot, unheld i]
    by_cases here : i = u.front
    · exact ⟨{ x with pins := x.pins + 1 }, by rw [if_pos here]; rfl, by simp [here]⟩
    · exact ⟨x, by rw [if_neg here], by simp [here]⟩
  cases held : v.state with
  | unpinned => exact held ▸ front_only (.inl held) (fun i => by rw [View.pinsSlot, held])
  | torn => exact held ▸ front_only (.inr held) (fun i => by rw [View.pinsSlot, held])
  | pinnedOrigin o lag => exact absurd held (slotted o lag)
  | pinnedSlot j g =>
    have pins (i : Fin 4) : v.pinsSlot i = decide (j = i) := by rw [View.pinsSlot, held]
    by_cases front : j = u.front
    · subst front
      rw [repin_front slots]
      exact ⟨u, slots, fun i x slot => ⟨x, slot, by rw [pins]; grind⟩⟩
    · rw [repin_older slots front]
      cases slot : u.slots[j] with
      | none =>
        rw [unpinSlot_absent slots slot]
        refine ⟨_, pinned slots, fun i x is => ?_⟩
        have other : j ≠ i := by
          rintro rfl
          exact nomatch slot.symm.trans is
        rw [SlotUnit.onSlot_get, is, pins]
        by_cases here : i = u.front
        · exact ⟨{ x with pins := x.pins + 1 }, by rw [if_pos here]; rfl, by simp [here, front]⟩
        · exact ⟨x, by rw [if_neg here], by simp [here, other]⟩
      | some y =>
        obtain ⟨u', slots', -, kept⟩ := unpinSlot_keeps slots slot front
        refine ⟨_, pinned slots', fun i x is => ?_⟩
        obtain ⟨x', slot', counted⟩ := kept i x is
        rw [SlotUnit.onSlot_get, slot', pins]
        by_cases here : i = u.front
        · subst here
          exact ⟨{ x' with pins := x'.pins + 1 }, by rw [if_pos rfl]; rfl, by simp [counted, front, Ne.symm front]⟩
        · refine ⟨x', by rw [if_neg here], counted.trans ?_⟩
          by_cases same : i = j
          · subst same; simp [here]
          · simp [here, same, Ne.symm same]

/-- An older slot that a moved pin gives up, and that is not allocated then. -/
theorem repin_released {w : Fin 16} {i : Fin 4} {g : BitVec 32} {u : SlotUnit} {x : Slot} {s : State}
    (slots : s.slots[w] = some u) (slot : u.slots[i] = some x) (behind : i ≠ u.front) (none_freed : s.freesNone w u x) :
    ∃ u', (repin w (.pinnedSlot i g) s).slots[w] = some u' ∧ u'.slots[i] = some x.released := by
  rw [repin_older slots behind, unpinSlot_freesNone slots slot behind none_freed, pinSlot, State.updSlot_onSlots,
    State.withSlots_onSlots]
  refine ⟨_, State.withSlots_slots .., ?_⟩
  rw [SlotUnit.onSlot_get, if_neg behind, SlotUnit.onSlot_get, if_pos rfl, slot]
  rfl

end Sys2Proof.Machine
end


section
/-! SUPPORT. The effect of a rising edge on FRMc in one window: its views, its slots and its waits. -/

namespace Sys2Proof.Machine

theorem State.updView_other (s : State) {w v : Fin 16} {c c' : Fin 8} (f : View → View) (other : v ≠ w ∨ c' ≠ c) :
    (s.updView w c f).view v c' = s.view v c' := by
  by_cases here : v = w
  · subst here
    exact (congrArg (fun x : Vector (Option View) 8 => x[c']) (upd_same s.views v _)).trans
      (upd_ne _ _ (Ne.symm (other.resolve_left (fun h => h rfl))))
  · exact congrArg (fun x : Vector (Option View) 8 => x[c']) (upd_ne s.views _ (Ne.symm here))

theorem View.pinsSlot_iff {v : View} {i : Fin 4} : v.pinsSlot i = true ↔ ∃ g, v.state = .pinnedSlot i g := by
  obtain ⟨state, _, _, _⟩ := v
  cases state <;> simp [View.pinsSlot]

theorem Slot.released_work {x : Slot} (published : x.isPublished = true) : x.released.work = none := by
  by_cases retires : x.retires
  · unfold Slot.released
    rw [if_pos (show x.isPublished = true ∧ x.pins ≤ 1 ∧ x.hold = false from retires)]
    by_cases unused : x.inFlight = 0 ∧ x.waiting = 0
    · rw [if_pos unused]
      rfl
    · rw [if_neg unused]
      rfl
  · rw [Slot.released_stays retires]
    exact Slot.work_of_published published

theorem SlotUnit.slot_of_blur {u u' : SlotUnit} (h : u'.blur = u.blur) {i : Fin 4} {x : Slot} (slot : u.slots[i] = some x) :
    ∃ x', u'.slots[i] = some x' ∧ x'.blur = x.blur := by
  have cell := (SlotUnit.of_blur h).2.2.2.2 i
  rw [slot] at cell
  exact Option.map_eq_some_iff.mp cell

/-! ### The frame start of one window and its slots -/

/-- A frame start of window `w`, where its consumer's view was `v` and becomes `y`, in the course of a command from `s` to
`r`: `t` is the state in which its turn comes. -/
structure FrameTurn (w : Fin 16) (c : Fin 8) (v y : View) (s t r : State) : Prop where
  before : Around w s t
  after  : Around w ((repin w v.state (t.updView w c (fun v => { v with state := newPin w t }))).updView w c
    (fun _ => y)) r

namespace FrameTurn

variable {w : Fin 16} {c : Fin 8} {v y : View} {s t r : State}

theorem view (h : FrameTurn w c v y s t r) (viewed : s.view w c = some v) : r.view w c = some y := by
  rw [h.after.view, State.updView_get, (shifts_repin ..).view, State.updView_get, h.before.view, viewed]
  rfl

theorem views (h : FrameTurn w c v y s t r) {c' : Fin 8} (other : c' ≠ c) : r.view w c' = s.view w c' := by
  rw [h.after.view, State.updView_other _ _ (.inr other), (shifts_repin ..).view, State.updView_other _ _ (.inr other),
    h.before.view]

/-- The slots before the pin moves, and those after. -/
theorem pins (h : FrameTurn w c v y s t r) {u : SlotUnit} (slots : s.slots[w] = some u)
    (slotted : ∀ o lag, v.state ≠ .pinnedOrigin o lag) {i : Fin 4} {x : Slot} (slot : u.slots[i] = some x) :
    ∃ x', r.slot w i = some x' ∧ x'.pins = if v.pinsSlot i = true ∧ i ≠ u.front then x.pins - 1
      else if i = u.front ∧ v.pinsSlot i = false then x.pins + 1 else x.pins := by
  obtain ⟨u₀, slots₀, blurred₀⟩ := h.before.unit slots
  have front := (SlotUnit.of_blur blurred₀).2.2.1
  obtain ⟨x₀, slot₀, seen₀⟩ := SlotUnit.slot_of_blur blurred₀ slot
  obtain ⟨u₁, slots₁, counted⟩ := repin_pins (s := t.updView w c (fun v => { v with state := newPin w t })) slots₀ slotted
  obtain ⟨x₁, slot₁, pins⟩ := counted i x₀ slot₀
  obtain ⟨u₂, slots₂, blurred₂⟩ := h.after.unit slots₁
  obtain ⟨x₂, slot₂, seen₂⟩ := SlotUnit.slot_of_blur blurred₂ slot₁
  refine ⟨x₂, (State.slot_of slots₂ i).trans slot₂, ?_⟩
  rw [(Slot.counts_of_blur seen₂).1, pins, (Slot.counts_of_blur seen₀).1, front]

theorem released (h : FrameTurn w c v y s t r) {u : SlotUnit} (slots : s.slots[w] = some u) {i : Fin 4} {x : Slot}
    (slot : u.slots[i] = some x) (pinned : v.pinsSlot i = true) (behind : i ≠ u.front) (published : x.isPublished = true)
    (none_freed : s.freesNone w u x) : r.slot w i = some x.released := by
  obtain ⟨g, held⟩ := View.pinsSlot_iff.mp pinned
  obtain ⟨u₀, slots₀, blurred₀⟩ := h.before.unit slots
  obtain ⟨filling, sealed, front, -⟩ := SlotUnit.of_blur blurred₀
  obtain ⟨x₀, slot₀, seen₀⟩ := SlotUnit.slot_of_blur blurred₀ slot
  obtain rfl := Slot.same_of_blur seen₀ (Slot.work_of_published published)
  have none_freed' : (t.updView w c (fun v => { v with state := newPin w t })).freesNone w u₀ x₀ := by
    have windows : (t.updView w c (fun v => { v with state := newPin w t })).windows = s.windows := h.before.windows
    unfold State.freesNone at none_freed ⊢
    rwa [filling, sealed, windows]
  obtain ⟨u₁, slots₁, slot₁⟩ := repin_released (g := g)
    (s := t.updView w c (fun v => { v with state := newPin w t })) slots₀ slot₀ (front ▸ behind) none_freed'
  rw [← held] at slots₁
  obtain ⟨u₂, slots₂, blurred₂⟩ := h.after.unit slots₁
  obtain ⟨x₂, slot₂, seen₂⟩ := SlotUnit.slot_of_blur blurred₂ slot₁
  rw [State.slot_of slots₂, slot₂, Slot.same_of_blur seen₂ (Slot.released_work published)]

/-- The slot given up is freed by that, and allocated. -/
theorem allocated (h : FrameTurn w c v y s t r) (one : s.oneWaiting) {u : SlotUnit} {d : Definition}
    (slots : s.slots[w] = some u) {i : Fin 4} {x : Slot} (slot : u.slots[i] = some x) (pinned : v.pinsSlot i = true)
    (behind : i ≠ u.front) (freed : s.frees w u i x) (definition : s.definition w = some d) :
    s.allocated r w i u d := by
  obtain ⟨g, held⟩ := View.pinsSlot_iff.mp pinned
  obtain ⟨u₀, slots₀, blurred₀⟩ := h.before.unit slots
  obtain ⟨filling, sealed, front, counter, -⟩ := SlotUnit.of_blur blurred₀
  obtain ⟨x₀, slot₀, seen₀⟩ := SlotUnit.slot_of_blur blurred₀ slot
  obtain rfl := Slot.same_of_blur seen₀ (Slot.work_of_published freed.1)
  have windows : (t.updView w c (fun v => { v with state := newPin w t })).windows = s.windows := h.before.windows
  have freed' : (t.updView w c (fun v => { v with state := newPin w t })).frees w u₀ i x₀ := by
    unfold State.frees at freed ⊢
    obtain ⟨published, pins, hold, flying, waiting, live, unfilled, unsealed, lowest⟩ := freed
    refine ⟨published, pins, hold, flying, waiting, windows ▸ live, filling.trans unfilled, sealed.trans unsealed,
      fun j below z₀ slot' free => ?_⟩
    obtain ⟨z, slot'', seen⟩ := SlotUnit.slot_of_blur blurred₀.symm slot'
    have same : z = z₀ := Slot.same_of_blur seen (by rw [Slot.work, free])
    exact lowest j below z slot'' (same ▸ free)
  have one' := h.before.one one
  have allocates := unpinSlot_frees (s := t.updView w c (fun v => { v with state := newPin w t })) one'
    ((h.before.definition w).trans definition) slots₀ slot₀ (front ▸ behind) freed'
  have after := h.after
  rw [held, repin_older (s := t.updView w c (fun v => { v with state := newPin w t })) slots₀ (front ▸ behind)] at after
  have one'' := State.oneWaiting.works (s := t.updView w c (fun v => { v with state := newPin w t })) one'
    (works_unpinSlot w i (t.updView w c (fun v => { v with state := newPin w t })))
  generalize unpinSlot w i (t.updView w c (fun v => { v with state := newPin w t })) = z at allocates after one''
  refine allocates.allocated_but front counter ⟨freed.2.2.2.1, freed.2.2.2.2.1⟩ (fun m e awaits => ?_)
    (fun v' is => ?_) (fun m e current awaits => ?_)
  · have window := (Entry.awaitsSlot_iff.mp awaits).1
    exact ⟨fun current => h.before.known one m e current window, fun current => (h.before.kept one m e current window).1⟩
  · have pinned' : ((pinSlot w u₀.front z).updView w c (fun _ => y)).slots[w] =
        some (v'.onSlot u₀.front (fun x => { x with pins := x.pins + 1 })) := by
      show (pinSlot w u₀.front z).slots[w] = _
      rw [pinSlot, State.updSlot_onSlots, State.onSlots_get, is]
      rfl
    obtain ⟨u₂, slots₂, blurred₂⟩ := after.unit pinned'
    obtain ⟨filling₂, -, front₂, counter₂, cells₂⟩ := SlotUnit.of_blur blurred₂
    refine ⟨u₂, slots₂, filling₂, front₂, counter₂, (cells₂ i).trans ?_⟩
    rw [SlotUnit.onSlot_get, if_neg (front ▸ behind)]
  · obtain ⟨current', -⟩ := allocates.waits current awaits
    obtain ⟨kept, timer⟩ := after.kept one'' m _ current' (Entry.awaitsSlot_iff.mp awaits).1
    exact ⟨kept.trans current'.symm, timer⟩

end FrameTurn

/-! ### Seeing -/

theorem State.leftSeeing_wait {s : State} {w m : Fin 16} {d : Definition} {u : RollState} {e : Entry}
    (current : s.current m = some e) (awaits : e.awaitsTarget w = true) :
    let clear : Bool := decide (u.seeing ≤ 1) && decide (u.readCount (d.targetPosition u.origin) = 0)
    (s.leftSeeing w d u).current m = some (if clear then e.clearVisibility else e) ∧
      (s.leftSeeing w d u).stallTimers[m] = if clear then none else s.stallTimers[m] := by
  intro clear
  by_cases released : clear = true
  · have lists : (s.leftSeeing w d u).responses = (s.seen w).responses := by
      simp only [State.leftSeeing, State.seen, Entry.clearVisibility_eq]
      exact if_pos released
    have timers : (s.leftSeeing w d u).stallTimers = (s.seen w).stallTimers := if_pos released
    rw [if_pos released, if_pos released]
    refine ⟨?_, ?_⟩
    · rw [State.current, lists]
      refine (State.seen_current s w m).trans ?_
      rw [current, Option.map_some, if_pos awaits]
    · exact (congrArg (fun x : Vector (Option Timer) 16 => x[m]) timers).trans (State.seen_timer current awaits)
  · have lists : (s.leftSeeing w d u).responses = s.responses := if_neg released
    have timers : (s.leftSeeing w d u).stallTimers = s.stallTimers := if_neg released
    rw [if_neg released, if_neg released]
    refine ⟨?_, congrArg (fun x : Vector (Option Timer) 16 => x[m]) timers⟩
    rw [State.current, lists]
    exact current

theorem State.leftSeeing_rolls (s : State) (w : Fin 16) (d : Definition) (u : RollState) :
    (s.leftSeeing w d u).rolls[w] = some { u with seeing := u.seeing - 1 } := Vector.getElem_set_self ..

/-- A pin of a rolling window moves that saw nothing. -/
theorem repin_blind {w : Fin 16} {held : ViewState} {d : Definition} {s : State} (definition : s.definition w = some d)
    (slots : s.slots[w] = none) (blind : ∀ o lag, held = .pinnedOrigin o lag → ¬ d.staging ≤ lag) : repin w held s = s := by
  cases held with
  | unpinned => exact repin_free (.inl rfl) slots
  | torn => exact repin_free (.inr rfl) slots
  | pinnedSlot j g => simp only [repin, slots]
  | pinnedOrigin o lag =>
    refine repin_unseen ?_
    rw [definition]
    exact decide_eq_false (blind o lag rfl)

namespace FrameTurn

variable {w : Fin 16} {c : Fin 8} {v y : View} {s t r : State}

theorem sees (h : FrameTurn w c v y s t r) (one : s.oneWaiting) {d : Definition} {u : RollState}
    (definition : s.definition w = some d) (rolls : s.rolls[w] = some u) {o lag : Nat}
    (held : v.state = .pinnedOrigin o lag) (seen : d.staging ≤ lag) :
    r.rolls[w] = some { u with seeing := u.seeing - 1 } ∧ ∀ m e, s.current m = some e → e.awaitsTarget w = true →
      r.current m = (s.leftSeeing w d u).current m ∧ r.stallTimers[m] = (s.leftSeeing w d u).stallTimers[m] := by
  have one' := h.before.one one
  have definition' := (h.before.definition w).trans definition
  have after := h.after
  have target : Machine.sees ((t.updView w c (fun v => { v with state := newPin w t })).definition w) lag = true := by
    rw [show (t.updView w c (fun v => { v with state := newPin w t })).definition w = some d from definition']
    exact decide_eq_true seen
  rw [held, repin_seen target, leaveSeeing_eq (s := t.updView w c (fun v => { v with state := newPin w t }))
    one' definition' (h.before.rolls.trans rolls)] at after
  refine ⟨after.rolls.trans (State.leftSeeing_rolls _ w d u), fun m e current awaits => ?_⟩
  have window := (Entry.awaitsTarget_iff.mp awaits).2.1
  obtain ⟨current₀, timer₀⟩ := h.before.kept one m e current window
  obtain ⟨currents, timers⟩ := State.leftSeeing_wait (u := u) (d := d)
    (s := t.updView w c (fun v => { v with state := newPin w t })) current₀ awaits
  obtain ⟨currents', timers'⟩ := State.leftSeeing_wait (u := u) (d := d) current awaits
  have one'' : ((t.updView w c (fun v => { v with state := newPin w t })).leftSeeing w d u).oneWaiting := by
    rw [← leaveSeeing_eq (s := t.updView w c (fun v => { v with state := newPin w t })) one' definition'
      (h.before.rolls.trans rolls)]
    exact State.oneWaiting.works (s := t.updView w c (fun v => { v with state := newPin w t })) one'
      (works_leaveSeeing ..)
  obtain ⟨kept, timer⟩ := after.kept one'' m _ currents (by split <;> exact window)
  refine ⟨kept.trans currents'.symm, timer.trans (timers.trans (Eq.trans ?_ timers'.symm))⟩
  exact congrArg (ite _ none) timer₀

theorem blind (h : FrameTurn w c v y s t r) {d : Definition} {u : RollState} (definition : s.definition w = some d)
    (slots : s.slots[w] = none) (rolls : s.rolls[w] = some u)
    (blind : ∀ o lag, v.state = .pinnedOrigin o lag → ¬ d.staging ≤ lag) : r.rolls[w] = some u := by
  have after := h.after
  rw [repin_blind (s := t.updView w c (fun v => { v with state := newPin w t }))
    ((h.before.definition w).trans definition) (h.before.noSlots slots) blind] at after
  exact after.rolls.trans (h.before.rolls.trans rolls)

end FrameTurn

end Sys2Proof.Machine

namespace Sys2Proof
open Machine

/-- Settles O36: one window's turn by `frameLine_starts`, the windows before and after it leaving it alone. -/
theorem frameLineStartsFrames : Obligations.FrameLineStartsFrames := by
  refine ⟨⟨fun c s idle => ?_, fun c b s running bound line => ⟨_, rfl, fun w v u g view takes slots generation => ?_,
    fun w v u view takes slots rolls => ?_, fun w c' other => ?_⟩⟩,
    fun c b w v u s running bound line view takes slots slotted => ⟨_, rfl, fun i x slot => ⟨?_, ?_⟩⟩,
    fun c b w v d u s one running bound line view takes slots rolls definition => ?_⟩
  · refine congrArg Host.Outcome.next ?_
    unfold frameLine
    split
    · rfl
    · next b bound =>
      refine if_neg ?_
      rintro ⟨line, running⟩
      exact idle.elim (fun h => h running) (fun h => h b bound line)
  · obtain ⟨t, before, after⟩ := frameLine_starts running bound line view takes
    have turn : FrameTurn w c v _ s t (frameLine c s) := ⟨before, after⟩
    refine (turn.view view).trans ?_
    rw [before.newPin_slotted slots, generation]
  · obtain ⟨t, before, after⟩ := frameLine_starts running bound line view takes
    have turn : FrameTurn w c v _ s t (frameLine c s) := ⟨before, after⟩
    refine (turn.view view).trans ?_
    rw [before.newPin_rolling slots rolls]
  · by_cases starts : (s.windows[w].state = .live ∨ s.windows[w].state = .halted) ∧ (s.view w c).isSome = true
    · obtain ⟨v, view⟩ := Option.isSome_iff_exists.mp starts.2
      obtain ⟨t, before, after⟩ := frameLine_starts running bound line view starts.1
      have turn : FrameTurn w c v _ s t (frameLine c s) := ⟨before, after⟩
      exact turn.views (other.resolve_right (fun h => starts.1.elim h.1 h.2))
    · obtain ⟨t, -, before, after⟩ := frameLine_turn running bound line w
      unfold frameTurn at after
      rw [if_neg (by rwa [before.windows, takesFrames_iff, before.view])] at after
      exact (after.view c').trans (before.view c')
  · obtain ⟨t, before, after⟩ := frameLine_starts running bound line view takes
    have turn : FrameTurn w c v _ s t (frameLine c s) := ⟨before, after⟩
    obtain ⟨x', slot', pins⟩ := turn.pins slots slotted slot
    refine ⟨x', slot', pins, fun pinned behind published none_freed => ?_⟩
    exact Option.some.inj (slot'.symm.trans (turn.released slots slot pinned behind published none_freed))
  · intro pinned behind freed one d definition
    obtain ⟨t, before, after⟩ := frameLine_starts running bound line view takes
    have turn : FrameTurn w c v _ s t (frameLine c s) := ⟨before, after⟩
    exact turn.allocated one slots slot pinned behind freed definition
  · obtain ⟨t, before, after⟩ := frameLine_starts running bound line view takes
    have turn : FrameTurn w c v _ s t (frameLine c s) := ⟨before, after⟩
    refine ⟨_, rfl, ?_, fun unseen => turn.blind definition slots rolls (fun o lag held seen => unseen ⟨o, lag, held, seen⟩)⟩
    rintro ⟨o, lag, held, seen⟩
    exact turn.sees one definition rolls held seen

end Sys2Proof
end


section
/-! SUPPORT. The completion of a copier burst (R77, R79, R84): its place, its slot's count and its buffer. -/

namespace Sys2Proof.Machine

/-! ### Bursts in flight -/

theorem State.slot_eq_some {s : State} {w : Fin 16} {i : Fin 4} {x : Slot} (slot : s.slot w i = some x) :
    ∃ u, s.slots[w] = some u ∧ u.slots[i] = some x := by
  cases slots : s.slots[w] with
  | none => rw [State.slot, slots] at slot; cases slot
  | some u => exact ⟨u, rfl, (State.slot_of slots i).symm.trans slot⟩

theorem Copier.bursting_iff (c : Copier) :
    c.burstsInFlight ≠ 0 ↔ ∃ (i : Fin 4) (b : Buffer), c.buffers[i] = some b ∧ b.inFlight = true := by
  rw [Copier.burstsInFlight, ← Nat.pos_iff_ne_zero, List.countP_pos_iff]
  refine exists_congr (fun i => ?_)
  rw [Option.any_eq_true]
  exact ⟨fun h => h.2, fun h => ⟨mem_bufferNumbers i, h⟩⟩

/-- Another burst than that of buffer `j` is in flight. -/
def Copier.othersFly (c : Copier) (j : Fin 4) : Prop :=
  ∃ j' : Fin 4, j' ≠ j ∧ ∃ b', c.buffers[j'] = some b' ∧ b'.inFlight = true

theorem Copier.clearBuffer_bursting (c : Copier) (j : Fin 4) : (c.clearBuffer j).burstsInFlight ≠ 0 ↔ c.othersFly j := by
  rw [Copier.bursting_iff]
  refine exists_congr (fun i => ?_)
  have cell : (c.clearBuffer j).buffers[i] = if j = i then none else c.buffers[i] := upd_get ..
  rw [cell]
  by_cases same : j = i
  · rw [if_pos same]
    exact ⟨fun h => (nomatch h.choose_spec.1), fun h => absurd same.symm h.1⟩
  · rw [if_neg same]
    exact ⟨fun h => ⟨Ne.symm same, h⟩, fun h => h.2⟩

theorem Copier.dropFull_bursting (c : Copier) : c.dropFull.burstsInFlight ≠ 0 ↔ c.burstsInFlight ≠ 0 := by
  rw [Copier.bursting_iff, Copier.bursting_iff]
  refine exists_congr (fun i => exists_congr (fun b => ?_))
  have cell : c.dropFull.buffers[i] = c.buffers[i].filter Buffer.inFlight := by simp [Copier.dropFull]
  rw [cell, Option.filter_eq_some_iff]
  exact ⟨fun h => ⟨h.1.1, h.2⟩, fun h => ⟨h, h.2⟩⟩

/-! ### A completed burst -/

/-- The completion of the burst of buffer `j` runs in a running part. -/
theorem burstCompletion_runs {tag : Fin 32} {q : MemRequest} {j : Fin 4} {y : Copy} {b : Buffer} {s : State}
    (running : s.link.part = .running) (placed : s.places[tag] = some q) (owner : q.owner = .copierBurst j)
    (copy : s.copier.copy = some y) (buffer : s.copier.buffers[j] = some b) (status : MemStatus) (data : List Dword) :
    exec (.copierBurstCompletion tag status data) s = .next (burstCompleted j b y status data (releasePlace tag s)) := by
  refine congrArg Host.Outcome.next (?_ : completeBurst tag status data s = _)
  obtain ⟨_, _, _, _⟩ := q
  obtain rfl := owner
  have copy' : (releasePlace tag s).copier.copy = some y := copy
  have buffer' : (releasePlace tag s).copier.buffers[j] = some b := buffer
  simp only [completeBurst, placed, copy', buffer']
  exact testReset_running ((congrArg Link.part (works_burstCompleted ..).link).trans running)

/-- The state after a burst of a copy into slot `i` of window `w` has completed, the copier then being `c` and the slot's
state changed by `f`. -/
def State.burst (s : State) (tag : Fin 32) (w : Fin 16) (i : Fin 4) (c : Copier) (f : SlotState → SlotState) : State :=
  State.updSlot { s with places := s.places.set tag none, copier := c } w i
    (fun x => { x with
      inFlight := x.inFlight - 1
      state := if x.state = .retiring ∧ x.inFlight ≤ 1 ∧ x.waiting = 0 then .free else f x.state })

theorem lowerSlotInFlight_burst {tag : Fin 32} {w : Fin 16} {i : Fin 4} {x : Slot} {s : State}
    (slot : s.slot w i = some x) (idle : x.state ≠ .retiring ∨ s.windows[w].state ≠ .live) :
    lowerSlotInFlight w i (releasePlace tag s) = s.burst tag w i s.copier id := by
  obtain ⟨u, slots, slot'⟩ := State.slot_eq_some slot
  rw [lowerSlotInFlight_eq (s := releasePlace tag s) slots slot' (idle.imp_right .inl), State.burst, State.updSlot_onSlots,
    State.onSlots_eq (s := { s with places := s.places.set tag none, copier := s.copier }) slots]
  rfl

/-! ### The copier after the burst -/

theorem afterLastBurst_waits {s : State} (flying : s.copier.burstsInFlight ≠ 0) : afterLastBurst s = s := by
  unfold afterLastBurst
  split
  · rfl
  · rw [if_pos flying]

theorem afterLastBurst_retries {y : Copy} {s : State} (copy : s.copier.copy = some y) (last : s.copier.burstsInFlight = 0)
    (kept : y.dropped = false) (failed : y.failed = true) : afterLastBurst s = startRetry s := by
  unfold afterLastBurst
  rw [copy]
  simp only [last, kept, failed, ne_eq, not_true, if_false, if_true, Bool.false_eq_true]

theorem afterLastBurst_ends {y : Copy} {s : State} (copy : s.copier.copy = some y) (last : s.copier.burstsInFlight = 0)
    (dropped : y.dropped = true) : afterLastBurst s = endDropped s := by
  unfold afterLastBurst
  rw [copy]
  simp only [last, dropped, ne_eq, not_true, if_false, if_true]

/-- A failed attempt whose last burst has completed is retried (R79). -/
theorem startRetry_eq {y : Copy} {s : State} (copy : s.copier.copy = some y) : startRetry s = { s with copier :=
    { s.copier with
      buffers := Vector.replicate 4 none
      copy := some { y with attempt := .retry, failed := false, next := 0, written := 0 } } } := by
  simp only [startRetry, State.updCopier, copy, Option.map_some]

theorem State.updCopy_eq {y : Copy} {s : State} (copy : s.copier.copy = some y) (f : Copy → Copy) :
    s.updCopy f = { s with copier := { s.copier with copy := some (f y) } } := by
  simp only [State.updCopy, State.updCopier, copy, Option.map_some]

/-- An idle copier without work stays so. -/
theorem kickCopier_none {s : State} (calm : s.copier.urgent = []) (jobless : ∀ w : Fin 16, s.copier.jobs[w] = none) :
    kickCopier s = s := by
  unfold kickCopier
  split
  · rfl
  split
  · rfl
  have none_found : (rotationOrder s.copier.pointer).find? (isCandidate s) = none :=
    List.find?_eq_none.mpr (fun w _ => by simp only [isCandidate, jobless w]; exact Bool.false_ne_true)
  rw [calm, none_found]

/-- Two changes of a slot that agree on its record are one. -/
theorem State.updSlot_congr {s : State} {w : Fin 16} {i : Fin 4} {x : Slot} {f g : Slot → Slot}
    (slot : s.slot w i = some x) (same : f x = g x) : s.updSlot w i f = s.updSlot w i g := by
  obtain ⟨u, slots, slot'⟩ := State.slot_eq_some slot
  rw [State.updSlot_onSlots, State.updSlot_onSlots, State.onSlots_eq slots, State.onSlots_eq slots,
    SlotUnit.onSlot_congr slot' same]

/-- A change of a slot that leaves its record leaves the state. -/
theorem State.updSlot_idle {s : State} {w : Fin 16} {i : Fin 4} {x : Slot} {f : Slot → Slot}
    (slot : s.slot w i = some x) (same : f x = x) : s.updSlot w i f = s := by
  obtain ⟨u, slots, slot'⟩ := State.slot_eq_some slot
  have idle : u.onSlot i f = id u := by
    refine SlotUnit.ext_slots (fun j => ?_) rfl rfl rfl rfl
    show _ = u.slots[j]
    rw [SlotUnit.onSlot_get]
    split
    · next here =>
      subst here
      rw [slot', Option.map_some, same]
    · rfl
  rw [State.updSlot_onSlots, State.onSlots_eq slots, idle, ← State.onSlots_eq slots, State.onSlots_id]

/-- What the end of a dropped copy makes of the slot it copied into (R84). -/
def SlotState.uncopying (b : Nat) (x : SlotState) : SlotState :=
  match x with
  | .filling k => .filling (if k.map[b]? = some .copying then { k with map := k.map.set b .needsCopy } else k)
  | x => x

theorem endDropped_last {y : Copy} {x : Slot} {s : State} (copy : s.copier.copy = some y) (dropped : y.dropped = true)
    (last : s.copier.burstsInFlight = 0) (calm : s.copier.urgent = []) (jobless : ∀ w : Fin 16, s.copier.jobs[w] = none)
    (slot : s.slot y.window y.dest = some x) : endDropped s =
      (s.updSlot y.window y.dest (fun x => { x with state := x.state.uncopying y.block })).updCopier Copier.endCopy := by
  have uncopied : (match s.slot y.window y.dest with
      | some { state := .filling k, .. } =>
        if k.map[y.block]? = some BlockState.copying then setBlock y.window y.dest y.block .needsCopy s else s
      | _ => s) = s.updSlot y.window y.dest (fun x => { x with state := x.state.uncopying y.block }) := by
    rw [slot]
    obtain ⟨state, _, _, _, _⟩ := x
    cases state with
    | filling k =>
      dsimp only
      split
      · next copying => exact State.updSlot_congr slot (by simp [Slot.updWork, SlotState.uncopying, copying])
      · next rests => exact (State.updSlot_idle slot (by simp [SlotState.uncopying, rests])).symm
    | _ => exact (State.updSlot_idle slot rfl).symm
  unfold endDropped
  rw [copy]
  dsimp only
  rw [if_neg (by rw [dropped]; nofun), if_neg (not_not.mpr last)]
  exact (congrArg (fun t : State => kickCopier (t.updCopier Copier.endCopy)) uncopied).trans
    (kickCopier_none calm jobless)

theorem State.burst_uncopying (s : State) (tag : Fin 32) {w : Fin 16} {i : Fin 4} {x : Slot}
    (slot : s.slot w i = some x) (b : Nat) (c : Copier) :
    (s.burst tag w i c id).updSlot w i (fun x => { x with state := x.state.uncopying b }) =
      s.burst tag w i c (SlotState.uncopying b) := by
  rw [State.burst, State.burst, State.updSlot_onSlots, State.updSlot_onSlots, State.onSlots_onSlots,
    State.updSlot_onSlots]
  obtain ⟨u, slots, slot'⟩ := State.slot_eq_some slot
  rw [State.onSlots_eq (s := { s with places := s.places.set tag none, copier := c }) slots,
    State.onSlots_eq (s := { s with places := s.places.set tag none, copier := c }) slots, SlotUnit.onSlot_onSlot]
  refine congrArg (State.withSlots _ w) (SlotUnit.onSlot_congr slot' ?_)
  dsimp only
  split <;> rfl

end Sys2Proof.Machine

namespace Sys2Proof
open Machine

/-- Settles O29: the count of the slot by `lowerSlotInFlight_burst`, then what the copy does next. -/
theorem copierBurstCompleted : Obligations.CopierBurstCompleted := by
  intro tag data q j y b d x s running placed owner copy buffer definition slot idle after othersInFlight retried
  have runs := burstCompletion_runs running placed owner copy buffer
  have lowered : lowerSlotInFlight y.window y.dest (releasePlace tag s) = after s.copier id :=
    lowerSlotInFlight_burst slot idle
  have slot' (c : Copier) : (s.burst tag y.window y.dest c id).slot y.window y.dest = some x.landed := by
    obtain ⟨u, slots, slot''⟩ := State.slot_eq_some slot
    rw [State.burst, State.updSlot_onSlots, State.onSlots_eq
      (s := { s with places := s.places.set tag none, copier := c }) slots, State.slot_of (State.withSlots_slots ..),
      SlotUnit.onSlot_get, if_pos rfl, slot'']
    rfl
  have flying_iff : (s.copier.clearBuffer j).burstsInFlight ≠ 0 ↔ othersInFlight := Copier.clearBuffer_bursting ..
  have failing (first : y.attempt = .first) : burstFault y (after (s.copier.clearBuffer j) id) = afterLastBurst (after
      { s.copier with
        buffers := (s.copier.buffers.set j none).map (Option.filter Buffer.inFlight)
        copy := some { y with failed := true } } id) := by
    unfold burstFault
    split
    · rw [State.updCopy_eq (s := after (s.copier.clearBuffer j) id) copy]
      rfl
    · next retry => exact nomatch first.symm.trans retry
  have failing_iff : Copier.burstsInFlight { s.copier with
      buffers := (s.copier.buffers.set j none).map (Option.filter Buffer.inFlight)
      copy := some { y with failed := true } } ≠ 0 ↔ othersInFlight :=
    (Copier.dropFull_bursting { s.copier.clearBuffer j with copy := some { y with failed := true } }).trans
      (Copier.clearBuffer_bursting { s.copier with copy := some { y with failed := true } } j)
  have running_on (status : MemStatus) (kept : y.dropped = false) (sound : y.failed = false) :
      burstCompleted j b y status data (releasePlace tag s) = match status, b.stage with
        | .memfault, _ => burstFault y (after (s.copier.clearBuffer j) id)
        | .done, .reading => after
          { s.copier with buffers := s.copier.buffers.set j (some ⟨b.chunk, .full (fitBeats 16 data)⟩) } id
        | .done, _ => chunkWritten y (after (s.copier.clearBuffer j) id) := by
    unfold burstCompleted
    rw [lowered]
    dsimp only
    rw [if_neg (by rw [kept, sound]; nofun)]
    rfl
  have giving_up (status : MemStatus) (given : y.dropped = true ∨ y.failed = true) :
      burstCompleted j b y status data (releasePlace tag s) = afterLastBurst (after (s.copier.clearBuffer j) id) := by
    unfold burstCompleted
    rw [lowered]
    dsimp only
    rw [if_pos given]
    rfl
  refine ⟨fun kept sound => ⟨fun reading => ?_, fun dt writing more => ?_, fun first flying => ?_, fun first last => ?_⟩,
    fun status => ⟨fun given flying => ?_, fun kept failed last => ?_, fun dropped last calm jobless => ?_⟩⟩
  · rw [runs, running_on _ kept sound, reading]
  · have same : chunkWritten y (after (s.copier.clearBuffer j) id) = after { s.copier with
        buffers := s.copier.buffers.set j none, copy := some { y with written := y.written + 1 } } id := by
      unfold chunkWritten
      rw [show (after (s.copier.clearBuffer j) id).definition y.window = some d from definition]
      dsimp only
      rw [if_neg more, State.updCopy_eq (s := after (s.copier.clearBuffer j) id) copy]
      rfl
    rw [runs, running_on _ kept sound, writing, ← same]
  · rw [runs, running_on _ kept sound, failing first, afterLastBurst_waits (failing_iff.mpr flying)]
  · rw [runs, running_on _ kept sound, failing first, afterLastBurst_retries (y := { y with failed := true }) rfl
      (not_not.mp (mt failing_iff.mp last)) kept rfl, startRetry_eq (y := { y with failed := true }) rfl]
    rfl
  · rw [runs, giving_up status given]
    exact congrArg Host.Outcome.next (afterLastBurst_waits (flying_iff.mpr flying))
  · have last' : (s.copier.clearBuffer j).burstsInFlight = 0 := not_not.mp (mt flying_iff.mp last)
    rw [runs, giving_up status (.inr failed),
      afterLastBurst_retries (s := after (s.copier.clearBuffer j) id) copy last' kept failed,
      startRetry_eq (s := after (s.copier.clearBuffer j) id) copy]
    rfl
  · have last' : (s.copier.clearBuffer j).burstsInFlight = 0 := not_not.mp (mt flying_iff.mp last)
    have ended := endDropped_last (s := after (s.copier.clearBuffer j) id) copy dropped last' calm jobless (slot' _)
    rw [runs, giving_up status (.inl dropped),
      afterLastBurst_ends (s := after (s.copier.clearBuffer j) id) copy last' dropped, ended]
    exact congrArg Host.Outcome.next (s.burst_uncopying tag slot y.block (s.copier.clearBuffer j).endCopy)

end Sys2Proof
end


section
/-! SUPPORT. The take of a commit (R131): what the owner of the window's mapping leaves alone, and its steps. -/

namespace Sys2Proof.Machine

/-! ### What the owner of a mapping leaves alone -/

/-- From `s` to `t` no fenced write of window `w` was touched, and no write became one. -/
structure Fences (w : Fin 16) (s t : State) : Prop where
  fenced   : ∀ m e, s.current m = some e → e.fencedAt w = true →
    ∃ x, t.current m = some x ∧ x.id = e.id ∧ x.request = e.request ∧ x.fencedAt w = true
  unfenced : s.noneFenced w → t.noneFenced w

namespace Fences

theorem refl (w : Fin 16) (s : State) : Fences w s s := ⟨fun _ e h f => ⟨e, h, rfl, rfl, f⟩, id⟩

theorem trans {w : Fin 16} {s t u : State} (a : Fences w s t) (b : Fences w t u) : Fences w s u := by
  refine ⟨fun m e current fenced => ?_, fun h => b.unfenced (a.unfenced h)⟩
  obtain ⟨x, current', id, request, fenced'⟩ := a.fenced m e current fenced
  obtain ⟨y, current'', id', request', fenced''⟩ := b.fenced m x current' fenced'
  exact ⟨y, current'', id'.trans id, request'.trans request, fenced''⟩

/-- Lists whose entries wait as they did. -/
theorem of_map {w : Fin 16} {s t : State} (f : Fin 16 → Entry → Entry)
    (lists : ∀ m : Fin 16, t.responses[m] = s.responses[m].map (f m)) (waiting : ∀ m e, (f m e).isWaiting = e.isWaiting)
    (same : ∀ m e, (f m e).id = e.id ∧ (f m e).request = e.request ∧ (f m e).fencedAt w = e.fencedAt w) :
    Fences w s t := by
  have currents (m : Fin 16) : t.current m = (s.current m).map (f m) := State.current_map (lists m) (waiting m)
  refine ⟨fun m e current fenced => ?_, fun h m e current => ?_⟩
  · obtain ⟨id, request, still⟩ := same m e
    exact ⟨f m e, by rw [currents, current]; rfl, id, request, still.trans fenced⟩
  · rw [currents] at current
    obtain ⟨x, current', rfl⟩ := Option.map_eq_some_iff.mp current
    exact (same m x).2.2.trans (h m x current')

theorem of_same {w : Fin 16} {s t : State} (responses : t.responses = s.responses) : Fences w s t :=
  of_map (fun _ => id) (fun m => by rw [responses, List.map_id]) (fun _ _ => rfl) (fun _ _ => ⟨rfl, rfl, rfl⟩)

end Fences

/-- From `s` to `t` the owner of window `w`'s mapping, the copier and the view unit have worked. -/
structure Owns (w : Fin 16) (s t : State) : Prop where
  frame  : t = { s with
    responses := t.responses, stallTimers := t.stallTimers, slots := t.slots, rolls := t.rolls, views := t.views
    copier := t.copier, notice := t.notice }
  fences : Fences w s t

namespace Owns

theorem refl (w : Fin 16) (s : State) : Owns w s s := ⟨rfl, .refl w s⟩

theorem trans {w : Fin 16} {s t u : State} (a : Owns w s t) (b : Owns w t u) : Owns w s u :=
  ⟨by rw [b.frame, a.frame], a.fences.trans b.fences⟩

theorem windows {w : Fin 16} {s t : State} (h : Owns w s t) : t.windows = s.windows := by rw [h.frame]
theorem commits {w : Fin 16} {s t : State} (h : Owns w s t) : t.commits = s.commits := by rw [h.frame]
theorem timebase {w : Fin 16} {s t : State} (h : Owns w s t) : t.timebase = s.timebase := by rw [h.frame]
theorem link {w : Fin 16} {s t : State} (h : Owns w s t) : t.link = s.link := by rw [h.frame]
theorem definition {w : Fin 16} {s t : State} (h : Owns w s t) (v : Fin 16) : t.definition v = s.definition v := by
  rw [State.definition, h.windows]
  rfl

theorem shifts {w : Fin 16} {s t : State} (h : Shifts s t) (fences : Fences w s t) : Owns w s t :=
  ⟨by rw [h], fences⟩

theorem chooses {w : Fin 16} {s t : State} (h : Chooses s t) : Owns w s t := ⟨by rw [h.frame], .of_same h.responses⟩

theorem updSlot (w v : Fin 16) (i : Fin 4) (f : Slot → Slot) (s : State) : Owns w s (s.updSlot v i f) :=
  ⟨rfl, .of_same rfl⟩

theorem updSlotUnit (w v : Fin 16) (f : SlotUnit → SlotUnit) (s : State) : Owns w s (s.updSlotUnit v f) :=
  ⟨rfl, .of_same rfl⟩

theorem updView (w v : Fin 16) (c : Fin 8) (f : View → View) (s : State) : Owns w s (s.updView v c f) :=
  ⟨rfl, .of_same rfl⟩

theorem updRoll (w v : Fin 16) (f : RollState → RollState) (s : State) : Owns w s (s.updRoll v f) :=
  ⟨rfl, .of_same rfl⟩

theorem updCopier (w : Fin 16) (f : Copier → Copier) (s : State) : Owns w s (s.updCopier f) := ⟨rfl, .of_same rfl⟩

theorem post (w : Fin 16) (b : NoticeBody) (s : State) : Owns w s (Machine.post b s) := ⟨rfl, .of_same rfl⟩

theorem foldl {α : Type} {w : Fin 16} (f : State → α → State) (h : ∀ t x, Owns w t (f t x)) (l : List α) (s : State) :
    Owns w s (l.foldl f s) := by
  induction l generalizing s with
  | nil => exact refl w s
  | cons x l ih => exact (h s x).trans (ih _)

theorem forConsumers {w : Fin 16} {f : Fin 8 → State → State} (h : ∀ c t, Owns w t (f c t)) (s : State) :
    Owns w s (Machine.forConsumers f s) := foldl _ (fun t c => h c t) _ s

end Owns

/-! ### The slot manager -/

/-- A current request that is changed and waits on is the current one still, or one with its number has become so. -/
theorem find?_map_waiting {l : List Entry} {e : Entry} {f : Entry → Entry} (waits : ∀ x, (f x).isWaiting = true)
    (current : l.find? Entry.isWaiting = some e) :
    ∃ y, (l.map (fun x => if x.id = e.id then f x else x)).find? Entry.isWaiting = some (f y) := by
  induction l with
  | nil => cases current
  | cons x l ih =>
    rw [List.map_cons]
    by_cases same : x.id = e.id
    · exact ⟨x, by rw [if_pos same, List.find?_cons_of_pos (waits x)]⟩
    · have idle : ¬ x.isWaiting = true := by
        intro busy
        rw [List.find?_cons_of_pos busy] at current
        exact same (congrArg Entry.id (Option.some.inj current))
      rw [List.find?_cons_of_neg idle] at current
      rw [if_neg same, List.find?_cons_of_neg idle]
      exact ih current

theorem fences_updEntry {w m : Fin 16} {e : Entry} {f : Entry → Entry} {s t : State} (current : s.current m = some e)
    (unfenced : e.fencedAt w = false) (waits : ∀ x, (f x).isWaiting = true) (mapped : ∀ x, (f x).fencedAt w = false)
    (responses : t.responses = (s.updEntry m e.id f).responses) : Fences w s t := by
  have same (n : Fin 16) : t.current n = (s.updEntry m e.id f).current n :=
    congrArg (fun r : Vector (List Entry) 16 => r[n].find? Entry.isWaiting) responses
  refine ⟨fun n x is fenced => ?_, fun h n x is => ?_⟩
  · have other : n ≠ m := by
      rintro rfl
      rw [Option.some.inj (current.symm.trans is), fenced] at unfenced
      cases unfenced
    exact ⟨x, (same n).trans ((State.current_updEntry_ne s other ..).trans is), rfl, rfl, fenced⟩
  · rw [same n] at is
    by_cases here : n = m
    · subst here
      obtain ⟨y, found⟩ := find?_map_waiting waits current
      rw [State.current, State.updEntry_responses, upd_same, found] at is
      exact Option.some.inj is ▸ mapped y
    · rw [State.current_updEntry_ne s here] at is
      exact h n x is

theorem Entry.unfenced_of_inSlotWait {w : Fin 16} {e : Entry} (h : e.inSlotWait = true) : e.fencedAt w = false := by
  obtain ⟨_, _, _, stage, _, _, _, _, _, _⟩ := e
  cases stage with
  | waiting wait => cases wait <;> simp_all [Entry.inSlotWait, Entry.fencedAt, Entry.inFenceWait]
  | _ => simp_all [Entry.inSlotWait]

theorem owns_mapWaitingToSlot {m w : Fin 16} {i : Fin 4} {s : State}
    (waits : ∀ e, s.current m = some e → e.fencedAt w = false) : Owns w s (mapWaitingToSlot m w i s) := by
  refine .shifts (shifts_mapWaitingToSlot ..) ?_
  unfold mapWaitingToSlot
  split
  · next e d k current _ _ =>
    extract_lets pieces t
    refine .trans (fences_updEntry (t := captureSlots w pieces (stopTimer m t)) current (waits e current)
      (f := fun x => { x with stage := .waiting .mapped, pieces := pieces, closing := closesSlotted d e.request })
      (fun x => rfl) (fun x => by simp [Entry.fencedAt, Entry.inFenceWait]) ?_)
      (.of_same (chooses_listFirstNeedsCopy ..).responses)
    rw [captureSlots_writes, captureSlots_same]
    rfl
  · exact .refl w s

theorem owns_mapSlotWaits (w : Fin 16) (i : Fin 4) (s : State) : Owns w s (mapSlotWaits w i s) := by
  unfold mapSlotWaits
  refine forMasters_keeps (fun t => Owns w s t) (fun m t h => ?_) (.refl w s)
  split
  · exact h
  next e current =>
  split
  · next waits =>
    refine h.trans (owns_mapWaitingToSlot (fun x is => ?_))
    obtain rfl := Option.some.inj (current.symm.trans is)
    exact Entry.unfenced_of_inSlotWait waits.2
  · exact h

theorem owns_createJob (w v : Fin 16) (i : Fin 4) (s : State) : Owns w s (createJob v i s) :=
  .chooses (chooses_createJob ..)

theorem owns_allocateSlot (w : Fin 16) (d : Definition) (u : SlotUnit) (i : Fin 4) (s : State) :
    Owns w s (allocateSlot w d u i s) := by
  unfold allocateSlot
  extract_lets t t'
  refine .trans (t := t') ?_ (owns_mapSlotWaits ..)
  have start : Owns w s t := (Owns.updSlot ..).trans (.updSlotUnit ..)
  unfold t'
  split
  · exact start.trans ((Owns.updSlot ..).trans (owns_createJob ..))
  · exact start

theorem owns_allocate (w : Fin 16) (s : State) : Owns w s (allocate w s) := by
  unfold allocate
  split
  · exact .refl w s
  split
  · split
    · exact .refl w s
    split
    · exact .refl w s
    · exact owns_allocateSlot ..
  · exact .refl w s

theorem owns_retire (w : Fin 16) (i : Fin 4) (s : State) : Owns w s (retire w i s) := by
  unfold retire
  split
  · split
    · split
      · exact (Owns.updSlot ..).trans (owns_allocate ..)
      · exact .updSlot ..
    · exact .refl w s
  · exact .refl w s

theorem owns_discardSlot (w : Fin 16) (i : Fin 4) (s : State) : Owns w s (discardSlot w i s) := by
  unfold discardSlot
  extract_lets source t t'
  have start : Owns w s t' := (Owns.updSlotUnit ..).trans (.updSlot ..)
  clear_value source
  split
  · exact start
  · exact start.trans ((Owns.updSlot ..).trans (owns_retire ..))

/-! ### The view unit -/

theorem owns_tearView {w : Fin 16} {c : Fin 8} {i : Fin 4} {s : State}
    (pinned : (s.view w c).any (fun v => v.state.isOnSlot i) = true) : Owns w s (tearView w c s) := by
  obtain ⟨v, view, on_slot⟩ := (Option.any_eq_true _ _).mp pinned
  unfold tearView
  rw [view]
  refine .trans (.trans (.updView w w c (fun v => { v with state := .torn, mark := none }) s) ?_) (.post ..)
  cases held : v.state with
  | pinnedSlot p g => exact (Owns.updSlot ..).trans (owns_retire ..)
  | _ => rw [held] at on_slot; cases on_slot

theorem owns_tearSlot (w : Fin 16) (i : Fin 4) (s : State) : Owns w s (tearSlot w i s) := by
  refine .forConsumers (fun c t => ?_) s
  split
  · next pinned => exact owns_tearView pinned
  · exact .refl w t

/-! ### The copier -/

theorem owns_endDropped (w : Fin 16) (s : State) : Owns w s (endDropped s) := by
  unfold endDropped
  split
  · exact .refl w s
  split
  · exact .refl w s
  split
  · exact .refl w s
  refine .trans (.trans ?_ (Owns.updCopier ..)) (.chooses (chooses_kickCopier _))
  split
  · split
    · exact .updSlot ..
    · exact .refl w s
  · exact .refl w s

theorem owns_dropJobs (w v : Fin 16) (s : State) : Owns w s (dropJobs v s) :=
  ((Owns.updCopier ..).trans (.updCopier ..)).trans (owns_endDropped ..)

/-! ### The take -/

theorem owns_freeGeneration (w : Fin 16) (g : BitVec 32) (s : State) : Owns w s (freeGeneration w g s) := by
  unfold freeGeneration
  split
  · exact .refl w s
  split
  · exact .refl w s
  · exact (owns_tearSlot ..).trans (owns_retire ..)

theorem owns_publishSlot (w : Fin 16) (i : Fin 4) (tag : BitVec 16) (s : State) : Owns w s (publishSlot w i tag s) := by
  unfold publishSlot
  split
  · exact .refl w s
  extract_lets g source t t₁ t₂ t₃ t₄
  have start : Owns w s t₂ :=
    (owns_freeGeneration ..).trans (((Owns.updSlotUnit ..).trans (.updSlot ..)).trans (.updCopier ..))
  have released : Owns w s t₃ := by
    unfold t₃
    clear_value source
    split
    · exact start
    · exact start.trans (.updSlot ..)
  exact released.trans ((owns_retire ..).trans ((Owns.post ..).trans (owns_allocate ..)))

theorem owns_takePublish (w : Fin 16) (c : Commit) (s : State) : Owns w s (takePublish w c s).1 := by
  unfold takePublish
  split
  · split
    · exact .post ..
    split
    · exact .post ..
    split
    · exact .post ..
    split
    · exact (Owns.updSlotUnit ..).trans (.updSlot ..)
    · exact owns_publishSlot ..
  · exact .post ..

theorem owns_takeAbandon (w : Fin 16) (c : Commit) (s : State) : Owns w s (takeAbandon w c s).1 := by
  unfold takeAbandon
  split
  · exact .post ..
  · exact (owns_discardSlot ..).trans ((owns_dropJobs ..).trans ((Owns.post ..).trans (owns_allocate ..)))

theorem owns_takeAdvance (w : Fin 16) (c : Commit) (s : State) : Owns w s (takeAdvance w c s).1 := by
  unfold takeAdvance
  split
  · extract_lets entering t t'
    have rolled : Owns w s t := .updRoll ..
    have viewed : Owns w t t' := .forConsumers (fun c t => .updView ..) t
    exact (rolled.trans viewed).trans (.post ..)
  · exact .refl w s

theorem owns_ownerTake (w : Fin 16) (c : Commit) (s : State) : Owns w s (ownerTake w c s).1 := by
  unfold ownerTake
  split
  · exact owns_takeAdvance ..
  split
  · exact owns_takePublish ..
  · exact owns_takeAbandon ..

theorem Entry.resolve_isWaiting (taken : Bool) (e : Entry) : (e.resolve taken).isWaiting = e.isWaiting := by
  unfold Entry.resolve
  dsimp only
  split
  · next held =>
    have settled (x : Entry) : x.settle.isWaiting = false := by
      unfold Entry.settle
      split <;> rfl
    rw [settled, Entry.isWaiting, held]
  · rfl

theorem Entry.resolve_same (w : Fin 16) (taken : Bool) (e : Entry) : (e.resolve taken).id = e.id ∧
    (e.resolve taken).request = e.request ∧ (e.resolve taken).fencedAt w = e.fencedAt w := by
  unfold Entry.resolve
  dsimp only
  split
  · next held =>
    refine ⟨rfl, rfl, congrArg (decide (e.window = some w) && ·) (?_ : _ = e.inFenceWait)⟩
    rw [Entry.inFenceWait, Entry.inFenceWait, held]
    unfold Entry.settle
    split <;> rfl
  · exact ⟨rfl, rfl, rfl⟩

theorem owns_releaseTrigger (w : Fin 16) (trigger : Option (Fin 16 × Nat)) (taken : Bool) (s : State) :
    Owns w s (releaseTrigger trigger taken s) := by
  unfold releaseTrigger
  split
  · exact .refl w s
  next m id =>
  refine ⟨rfl, .of_map (fun n e => if n = m ∧ e.id = id then e.resolve taken else e) (fun n => ?_) (fun n e => ?_)
    (fun n e => ?_)⟩
  · rw [State.updEntry_responses]
    by_cases here : n = m
    · subst here
      rw [upd_same]
      exact List.map_congr_left (fun e _ => by simp only [true_and])
    · rw [upd_ne _ _ (Ne.symm here)]
      simp only [here, false_and, if_false, List.map_id']
  · split
    · exact e.resolve_isWaiting taken
    · rfl
  · split
    · exact e.resolve_same w taken
    · exact ⟨rfl, rfl, rfl⟩

theorem owns_dropAfterTake (w : Fin 16) (s : State) : Owns w s (dropAfterTake w s) := by
  unfold dropAfterTake
  split
  · exact owns_dropJobs ..
  · exact .refl w s

theorem forMasters_idle {f : Fin 16 → State → State} {s : State} (idle : ∀ m, f m s = s) : forMasters f s = s := by
  have folded (l : List (Fin 16)) : l.foldl (fun t m => f m t) s = s := by
    induction l with
    | nil => rfl
    | cons m l ih => rw [List.foldl_cons, idle m, ih]
  exact folded masters

theorem reclassifyFenced_idle {w : Fin 16} {s : State} (unfenced : s.noneFenced w) : reclassifyFenced w s = s := by
  refine forMasters_idle (fun m => ?_)
  split
  · rfl
  · next e current => exact if_neg (by rw [unfenced m e current]; exact Bool.false_ne_true)

/-- The take of a commit as its owner, its trigger and the copier have it, before the fence drops. -/
def takenState (w : Fin 16) (c : Commit) (s : State) : State :=
  dropAfterTake w (releaseTrigger c.trigger (ownerTake w c s).2 (ownerTake w c s).1)

theorem owns_takenState (w : Fin 16) (c : Commit) (s : State) : Owns w s (takenState w c s) :=
  (owns_ownerTake ..).trans ((owns_releaseTrigger ..).trans (owns_dropAfterTake ..))

/-- A state in which a commit of window `w` has ended, its queue kept and its fence down. -/
def State.fenceDown (s : State) (w : Fin 16) (queue : List Commit) : State :=
  { s with commits := s.commits.set w { queue := queue, current := none, fence := false } }

theorem State.fenceDown_commits (s : State) (w : Fin 16) (queue : List Commit) :
    (s.fenceDown w queue).commits[w] = { queue := queue, current := none, fence := false } := Vector.getElem_set_self ..

theorem takeOnce_eq (w : Fin 16) (c : Commit) (s : State) :
    takeOnce w c s = reclassifyFenced w ((takenState w c s).fenceDown w s.commits[w].queue) := by
  have commits : (takenState w c s).commits[w] = s.commits[w] :=
    congrArg (fun x : Vector CommitState 16 => x[w]) (owns_takenState w c s).commits
  refine congrArg (reclassifyFenced w) (?_ : (takenState w c s).updCommits w _ = _)
  rw [State.updCommits, upd, commits]
  rfl

/-- What follows a take whose fence is down: the head of the queue. -/
theorem takeNext_afterTake {w : Fin 16} {queue : List Commit} {s : State}
    (ended : s.commits[w] = { queue := queue, current := none, fence := false }) :
    Host.Outcome.next ((takeNext w)^[queue.length] (beginNext w s)) = s.afterTake w := by
  have idle (t : State) (current : t.commits[w].current = none) : takeNext w t = t := by
    simp only [takeNext, drained, current]
  unfold State.afterTake beginNext
  rw [ended]
  cases queue with
  | nil => rfl
  | cons c rest =>
    dsimp only
    split
    · rw [State.begins_eq]
      refine congrArg Host.Outcome.next ?_
      have queued : (s.updCommits w (fun x => { x with queue := rest })).commits[w].queue = rest := by
        rw [State.updCommits]
        exact congrArg CommitState.queue (upd_same s.commits w _)
      have begun : (s.updCommits w (fun x => { x with queue := rest })).begun w rest c = s.begun w rest c := by
        simp [State.begun, State.updCommits, upd, State.drainCount]
      rw [beginCommit_eq, queued, begun, takeCommit, State.begun_commits]
      rfl
    · refine congrArg Host.Outcome.next (Function.iterate_fixed (idle s (by rw [ended])) _)

/-- COMMIT_TAKE of a commit whose drain set has ended, no write being fenced. -/
theorem commitTake_eq {w : Fin 16} {c : Commit} {s : State} (current : s.commits[w].current = some ⟨c, 0⟩) :
    exec (.commitTake w) s =
      .next ((takeNext w)^[s.commits[w].queue.length] (beginNext w (takeOnce w c s))) := by
  have first : takeNext w s = beginNext w (takeOnce w c s) := by simp only [takeNext, drained, current]
  refine congrArg Host.Outcome.next (?_ : takeCommit w s = _)
  rw [takeCommit, Function.iterate_succ_apply, first]

theorem commitTake_unfenced {w : Fin 16} {c : Commit} {s : State} (current : s.commits[w].current = some ⟨c, 0⟩)
    (unfenced : s.noneFenced w) :
    exec (.commitTake w) s = ((takenState w c s).fenceDown w s.commits[w].queue).afterTake w := by
  rw [commitTake_eq current, takeOnce_eq,
    reclassifyFenced_idle (s := (takenState w c s).fenceDown w _) ((owns_takenState w c s).fences.unfenced unfenced)]
  exact takeNext_afterTake (State.fenceDown_commits ..)

end Sys2Proof.Machine
end


section
/-! SUPPORT. The publication of a slot (R58, R59), and what an allocation leaves of the requests that do not wait. -/

namespace Sys2Proof.Machine

/-! ### Requests that do not wait -/

/-- From `s` to `t` no request that does not wait was touched. -/
def Rests (s t : State) : Prop := ∀ (m : Fin 16) e, e ∈ s.responses[m] → e.isWaiting = false → e ∈ t.responses[m]

namespace Rests

theorem of_same {s t : State} (responses : t.responses = s.responses) : Rests s t :=
  fun m e listed _ => (congrArg (fun r : Vector (List Entry) 16 => e ∈ r[m]) responses).mpr listed

theorem refl (s : State) : Rests s s := of_same rfl

theorem trans {s t u : State} (a : Rests s t) (b : Rests t u) : Rests s u :=
  fun m e listed idle => b m e (a m e listed idle) idle

end Rests

theorem rests_updEntry {m : Fin 16} {x : Entry} {s : State} (one : s.oneWaiting) (current : s.current m = some x)
    (f : Entry → Entry) : Rests s (s.updEntry m x.id f) := by
  intro n e listed idle
  show e ∈ (upd s.responses m _)[n]
  by_cases here : n = m
  · subst here
    rw [upd_same]
    refine List.mem_map.mpr ⟨e, listed, if_neg (fun same => ?_)⟩
    obtain rfl := one.of_id current listed same
    rw [(State.current_eq_some current).2] at idle
    cases idle
  · rwa [upd_ne _ _ (Ne.symm here)]

theorem rests_mapWaitingToSlot {m w : Fin 16} {i : Fin 4} {s : State} (one : s.oneWaiting) :
    Rests s (mapWaitingToSlot m w i s) := by
  unfold mapWaitingToSlot
  split
  · next x d k current _ _ =>
    extract_lets pieces t
    refine .trans (t := t) (rests_updEntry one current _) (.trans (t := captureSlots w pieces (stopTimer m t)) (.of_same ?_)
      (.of_same (chooses_listFirstNeedsCopy ..).responses))
    rw [captureSlots_writes, captureSlots_same]
    rfl
  · exact .refl s

theorem rests_mapSlotWaits {w : Fin 16} {i : Fin 4} {s : State} (one : s.oneWaiting) : Rests s (mapSlotWaits w i s) := by
  unfold mapSlotWaits
  refine (forMasters_keeps (fun t => t.oneWaiting ∧ Rests s t) (fun m t h => ?_) ⟨one, .refl s⟩).2
  obtain ⟨one', rests⟩ := h
  split
  · exact ⟨one', rests⟩
  split
  · exact ⟨one'.works (works_mapWaitingToSlot ..), rests.trans (rests_mapWaitingToSlot one')⟩
  · exact ⟨one', rests⟩

theorem rests_allocateSlot {w : Fin 16} {d : Definition} {u : SlotUnit} {i : Fin 4} {s : State} (one : s.oneWaiting)
    (slots : s.slots[w] = some u) : Rests s (allocateSlot w d u i s) := by
  obtain ⟨t, is, chooses, -⟩ := allocateSlot_chooses w d u i slots
  have start : Rests s t := .of_same (chooses.responses.trans rfl)
  rw [is]
  refine start.trans (rests_mapSlotWaits (fun m => ?_))
  rw [chooses.responses, chooses.nextId]
  exact one m

theorem rests_allocate {w : Fin 16} {s : State} (one : s.oneWaiting) : Rests s (allocate w s) := by
  unfold allocate
  split
  · exact .refl s
  split
  · split
    · exact .refl s
    split
    · exact .refl s
    · exact rests_allocateSlot one ‹_›
  · exact .refl s

theorem rests_retire {w : Fin 16} {i : Fin 4} {s : State} (one : s.oneWaiting) : Rests s (retire w i s) := by
  unfold retire
  split
  · split
    · split
      · exact .trans (.of_same rfl) (rests_allocate (s := s.updSlot w i Slot.leave) one)
      · exact .of_same rfl
    · exact .refl s
  · exact .refl s

/-! ### The slots that retirement and allocation leave -/

/-- From `u` to `u'` the front, the SEALED slot and the generation are the same and each slot has its pins, and its state
unless it was FREE or had a block map. -/
structure SlotUnit.Keeps (u u' : SlotUnit) : Prop where
  front   : u'.front = u.front
  sealed  : u'.sealed = u.sealed
  counter : u'.counter = u.counter
  slot    : ∀ (j : Fin 4) x, u.slots[j] = some x → ∃ x', u'.slots[j] = some x' ∧ x'.pins = x.pins ∧
    (x.state ≠ .free → x.work = none → x'.state = x.state)

theorem Slot.work_of_state {x x' : Slot} (h : x'.state = x.state) : x'.work = x.work := by rw [Slot.work, h]; rfl

namespace SlotUnit.Keeps

theorem refl (u : SlotUnit) : u.Keeps u := ⟨rfl, rfl, rfl, fun _ x is => ⟨x, is, rfl, fun _ _ => rfl⟩⟩

theorem trans {u v z : SlotUnit} (a : u.Keeps v) (b : v.Keeps z) : u.Keeps z := by
  refine ⟨b.front.trans a.front, b.sealed.trans a.sealed, b.counter.trans a.counter, fun j x is => ?_⟩
  obtain ⟨y, slot, pins, state⟩ := a.slot j x is
  obtain ⟨x', slot', pins', state'⟩ := b.slot j y slot
  refine ⟨x', slot', pins'.trans pins, fun used none => ?_⟩
  have same := state used none
  exact (state' (by rwa [same]) (by rwa [Slot.work_of_state same])).trans same

theorem of_blur {u u' : SlotUnit} (h : u'.blur = u.blur) : u.Keeps u' := by
  obtain ⟨-, sealed, front, counter, -⟩ := SlotUnit.of_blur h
  refine ⟨front, sealed, counter, fun j x is => ?_⟩
  obtain ⟨x', slot', blurred⟩ := SlotUnit.slot_of_blur h is
  exact ⟨x', slot', (Slot.counts_of_blur blurred).1, fun _ none => by rw [Slot.same_of_blur blurred none]⟩

theorem published {u u' : SlotUnit} (h : u.Keeps u') {j : Fin 4} {x : Slot} {g : BitVec 32} (is : u.slots[j] = some x)
    (state : x.state = .published g) : ∃ x', u'.slots[j] = some x' ∧ x'.pins = x.pins ∧ x'.state = .published g := by
  obtain ⟨x', slot', pins, same⟩ := h.slot j x is
  exact ⟨x', slot', pins, (same (by rw [state]; nofun) (by rw [Slot.work, state])).trans state⟩

end SlotUnit.Keeps

theorem allocate_kept {w : Fin 16} {u : SlotUnit} {s : State} (slots : s.slots[w] = some u) :
    ∃ u', (allocate w s).slots[w] = some u' ∧ u.Keeps u' := by
  obtain ⟨u', slots', front, counter, sealed, kept⟩ := allocate_keeps slots
  exact ⟨u', slots', front, sealed, counter, kept⟩

theorem retire_idle {w : Fin 16} {i : Fin 4} {u : SlotUnit} {s : State} (slots : s.slots[w] = some u)
    (idle : ∀ x, u.slots[i] = some x → ¬ (x.isPublished = true ∧ u.front ≠ i ∧ x.pins = 0 ∧ x.hold = false)) :
    retire w i s = s := by
  unfold retire
  rw [slots, State.slot_of slots]
  split
  · next v x is slot =>
    obtain rfl := Option.some.inj is
    exact if_neg (idle x slot)
  · rfl

theorem retire_goes {w : Fin 16} {i : Fin 4} {u : SlotUnit} {x : Slot} {s : State} (slots : s.slots[w] = some u)
    (slot : u.slots[i] = some x) (goes : x.isPublished = true ∧ u.front ≠ i ∧ x.pins = 0 ∧ x.hold = false) :
    retire w i s = if x.inFlight = 0 ∧ x.waiting = 0 then allocate w (s.withSlots w (u.onSlot i Slot.leave))
      else s.withSlots w (u.onSlot i Slot.leave) := by
  unfold retire
  rw [slots, State.slot_of slots, slot, State.updSlot_onSlots, State.onSlots_eq slots]
  exact if_pos goes

/-- A retirement, whatever follows it, leaves the other slots and those with a pin. -/
theorem retire_kept {w : Fin 16} {i : Fin 4} {u : SlotUnit} {s : State} (slots : s.slots[w] = some u) :
    ∃ u', (retire w i s).slots[w] = some u' ∧ u'.front = u.front ∧ u'.sealed = u.sealed ∧
      u'.counter = u.counter ∧ ∀ (j : Fin 4) x, u.slots[j] = some x → (j ≠ i ∨ x.pins ≠ 0) → ∃ x', u'.slots[j] = some x' ∧ x'.pins = x.pins ∧
        (x.state ≠ .free → x.work = none → x'.state = x.state) := by
  by_cases goes : ∃ x, u.slots[i] = some x ∧ x.isPublished = true ∧ u.front ≠ i ∧ x.pins = 0 ∧ x.hold = false
  · obtain ⟨y, slot, goes⟩ := goes
    have other (j : Fin 4) (x : Slot) (is : u.slots[j] = some x) (stays : j ≠ i ∨ x.pins ≠ 0) :
        (u.onSlot i Slot.leave).slots[j] = some x := by
      have apart : j ≠ i := by
        rintro rfl
        obtain rfl := Option.some.inj (slot.symm.trans is)
        exact stays.elim (fun h => h rfl) (fun h => h goes.2.2.1)
      rw [SlotUnit.onSlot_get, if_neg apart, is]
    rw [retire_goes slots slot goes]
    split
    · obtain ⟨u', slots', kept⟩ := allocate_kept (s := s.withSlots w (u.onSlot i Slot.leave)) (State.withSlots_slots ..)
      exact ⟨u', slots', kept.front, kept.sealed, kept.counter, fun j x is stays => kept.slot j x (other j x is stays)⟩
    · exact ⟨_, State.withSlots_slots .., rfl, rfl, rfl, fun j x is stays => ⟨x, other j x is stays, rfl, fun _ _ => rfl⟩⟩
  · rw [retire_idle slots (fun x is h => goes ⟨x, is, h⟩)]
    exact ⟨u, slots, rfl, rfl, rfl, fun j x is _ => ⟨x, is, rfl, fun _ _ => rfl⟩⟩

/-! ### Dropped jobs -/

/-- A window's jobs dropped: nothing but block maps and the copier. -/
theorem endDropped_frame (s : State) : endDropped s = { s with
    slots := (endDropped s).slots, copier := (endDropped s).copier } := by
  unfold endDropped
  split
  · rfl
  split
  · rfl
  split
  · rfl
  · rw [(chooses_kickCopier _).frame]
    split
    · split <;> rfl
    · rfl

theorem dropJobs_frame (w : Fin 16) (s : State) : dropJobs w s = { s with
    slots := (dropJobs w s).slots, copier := (dropJobs w s).copier } := by
  unfold dropJobs
  rw [endDropped_frame]
  rfl

theorem exists_ne (w : Fin 16) : ∃ v, v ≠ w := ⟨w + 1, by decide +revert⟩

theorem dropJobs_blur (v w : Fin 16) (s : State) :
    (dropJobs v s).slots[w].map SlotUnit.blur = s.slots[w].map SlotUnit.blur := by
  obtain ⟨x, other⟩ := exists_ne w
  exact (local_dropJobs x v s).slots w other.symm

theorem dropJobs_unit {v w : Fin 16} {u : SlotUnit} {s : State} (slots : s.slots[w] = some u) :
    ∃ u', (dropJobs v s).slots[w] = some u' ∧ u'.blur = u.blur := by
  have blurred := dropJobs_blur v w s
  rw [slots] at blurred
  exact Option.map_eq_some_iff.mp blurred

end Sys2Proof.Machine
end


section
/-! SUPPORT. The publication of a slot (R58, R59) and the answer of the store that triggered it (R132). -/

namespace Sys2Proof.Machine

/-! ### Publication -/

/-- The slots of a window as slot `i` is published, the former front not yet retired. -/
def SlotUnit.publishes (u : SlotUnit) (i : Fin 4) (source : Option (Fin 4)) : SlotUnit :=
  let v := { u with
    counter := u.counter + 1, front := i
    filling := if u.filling = some i then none else u.filling
    sealed := if u.sealed = some i then none else u.sealed }.onSlot i (fun x => { x with state := .published (u.counter + 1) })
  match source with
  | none => v
  | some f => v.onSlot f (fun x => { x with hold := false })

theorem SlotUnit.publishes_rest (u : SlotUnit) (i : Fin 4) (source : Option (Fin 4)) :
    (u.publishes i source).front = i ∧ (u.publishes i source).counter = u.counter + 1 ∧
      (u.publishes i source).sealed = if u.sealed = some i then none else u.sealed := by
  cases source <;> exact ⟨rfl, rfl, rfl⟩

theorem SlotUnit.publishes_slot {u : SlotUnit} {i j : Fin 4} {x : Slot} (source : Option (Fin 4)) (is : u.slots[j] = some x) :
    ∃ hold, (u.publishes i source).slots[j] = some { x with
      hold := hold, state := if j = i then .published (u.counter + 1) else x.state } := by
  have opened : ({ u with
      counter := u.counter + 1, front := i
      filling := if u.filling = some i then none else u.filling
      sealed := if u.sealed = some i then none else u.sealed }.onSlot i
        (fun x => { x with state := .published (u.counter + 1) })).slots[j] =
      some { x with state := if j = i then .published (u.counter + 1) else x.state } := by
    rw [SlotUnit.onSlot_get, is]
    split <;> rfl
  unfold SlotUnit.publishes
  cases source with
  | none => exact ⟨x.hold, opened⟩
  | some f =>
    dsimp only
    rw [SlotUnit.onSlot_get, opened]
    split
    · exact ⟨false, rfl⟩
    · exact ⟨x.hold, rfl⟩

theorem freeGeneration_idle {w : Fin 16} {g : BitVec 32} {u : SlotUnit} {s : State} (slots : s.slots[w] = some u)
    (fresh : ∀ (j : Fin 4) x, j ≠ u.front → u.slots[j] = some x → x.state ≠ .published g) : freeGeneration w g s = s := by
  have none_reused : reusedSlot u g = none := by
    refine List.find?_eq_none.mpr (fun j _ reused => ?_)
    obtain ⟨behind, holds⟩ := (Bool.and_eq_true _ _).mp reused
    obtain ⟨x, slot, published⟩ := (Option.any_eq_true _ _).mp holds
    exact fresh j x (of_decide_eq_true behind) slot (of_decide_eq_true published)
  unfold freeGeneration
  rw [slots]
  dsimp only
  rw [none_reused]

theorem State.updSlotUnit_eq {s : State} {w : Fin 16} {u : SlotUnit} (slots : s.slots[w] = some u)
    (f : SlotUnit → SlotUnit) : s.updSlotUnit w f = s.withSlots w (f u) := State.onSlots_eq slots f

theorem publishSlot_eq {w : Fin 16} {i : Fin 4} {tag : BitVec 16} {u : SlotUnit} {s : State} (slots : s.slots[w] = some u)
    (fresh : ∀ (j : Fin 4) x, j ≠ u.front → u.slots[j] = some x → x.state ≠ .published (u.counter + 1)) :
    publishSlot w i tag s = allocate w (post (.published w i (u.counter + 1) tag) (retire w u.front
      ((removeJob w s).withSlots w (u.publishes i ((s.work w i).bind Work.source))))) := by
  unfold publishSlot
  rw [slots]
  dsimp only
  rw [freeGeneration_idle slots fresh, State.updSlotUnit_eq slots, State.updSlot_onSlots, State.withSlots_onSlots]
  generalize (s.work w i).bind Work.source = source
  cases source with
  | none => rfl
  | some f =>
    refine congrArg (fun t => allocate w (post (.published w i (u.counter + 1) tag) (retire w u.front t))) ?_
    exact (removeJob w s).withSlots_onSlots w _ (fun v => v.onSlot f (fun x => { x with hold := false }))

/-- What the publication of slot `i` of window `w`, whose slots were `u`, makes of a state. -/
structure Publishes (w : Fin 16) (i : Fin 4) (tag : BitVec 16) (u : SlotUnit) (s t : State) : Prop where
  unit   : ∃ u', t.slots[w] = some u' ∧ u'.front = i ∧ u'.counter = u.counter + 1 ∧
    u'.sealed = (if u.sealed = some i then none else u.sealed) ∧
    (∃ x', u'.slots[i] = some x' ∧ x'.state = .published (u.counter + 1)) ∧
    ∀ x g, u.slots[u.front] = some x → x.state = .published g → 0 < x.pins →
      ∃ x', u'.slots[u.front] = some x' ∧ x'.state = .published g ∧ x'.pins = x.pins
  views  : t.views = s.views
  notice : t.notice = s.notice.take (.published w i (u.counter + 1) tag) s.timebase

theorem publishSlot_publishes {w : Fin 16} {i : Fin 4} (tag : BitVec 16) {u : SlotUnit} {x : Slot} {s : State}
    (slots : s.slots[w] = some u) (slot : u.slots[i] = some x) (behind : u.front ≠ i)
    (fresh : ∀ (j : Fin 4) x, j ≠ u.front → u.slots[j] = some x → x.state ≠ .published (u.counter + 1)) :
    Publishes w i tag u s (publishSlot w i tag s) := by
  rw [publishSlot_eq slots fresh]
  generalize (s.work w i).bind Work.source = source
  obtain ⟨front, counter, sealed⟩ := u.publishes_rest i source
  obtain ⟨hold, shown⟩ := SlotUnit.publishes_slot (i := i) source slot
  rw [if_pos rfl] at shown
  obtain ⟨u₁, slots₁, front₁, sealed₁, counter₁, kept₁⟩ := retire_kept (i := u.front)
    (s := (removeJob w s).withSlots w (u.publishes i source)) (State.withSlots_slots ..)
  have retired := shifts_retire w u.front ((removeJob w s).withSlots w (u.publishes i source))
  generalize retire w u.front ((removeJob w s).withSlots w (u.publishes i source)) = t at slots₁ retired
  have allocated := shifts_allocate w (post (.published w i (u.counter + 1) tag) t)
  obtain ⟨u₂, slots₂, kept₂⟩ := allocate_kept (s := post (.published w i (u.counter + 1) tag) t) slots₁
  refine ⟨⟨u₂, slots₂, kept₂.front.trans (front₁.trans front), kept₂.counter.trans (counter₁.trans counter),
    kept₂.sealed.trans (sealed₁.trans sealed), ?_, fun y g is published pinned => ?_⟩,
    allocated.views.trans retired.views, allocated.notice.trans ?_⟩
  · obtain ⟨x₁, slot₁, -, state₁⟩ := kept₁ i _ shown (.inl behind.symm)
    obtain ⟨x₂, slot₂, -, state₂⟩ := kept₂.published slot₁ (state₁ nofun rfl)
    exact ⟨x₂, slot₂, state₂⟩
  · obtain ⟨hold', held⟩ := SlotUnit.publishes_slot (i := i) source is
    rw [if_neg behind] at held
    obtain ⟨y₁, slot₁, pins₁, state₁⟩ := kept₁ u.front _ held (.inr (Nat.pos_iff_ne_zero.mp pinned))
    have published₁ : y₁.state = .published g :=
      (state₁ (by rw [published]; nofun) (by rw [Slot.work, published])).trans published
    obtain ⟨y₂, slot₂, pins₂, state₂⟩ := kept₂.published slot₁ published₁
    exact ⟨y₂, slot₂, state₂, pins₂.trans pins₁⟩
  · show t.notice.take _ t.timebase = _
    rw [retired.notice, retired.timebase]
    rfl

/-! ### The trigger's answer (R132) -/

/-- The held store whose one unresolved commit is taken. -/
theorem Entry.resolve_held {e : Entry} (held : e.stage = .held) (last : e.unresolved = 1) (write : e.request.kind = .write)
    (sound : ∀ p ∈ e.pieces, p.stage ≠ .faulted) : (e.resolve true).stage = .complete ⟨.done, []⟩ := by
  have unfaulted : e.anyFault = false :=
    List.any_eq_false.mpr (fun p listed => by rw [decide_eq_true_iff]; exact sound p listed)
  have answer : Entry.answer { e with unresolved := e.unresolved - 1, anyTaken := e.anyTaken || true } = ⟨.done, []⟩ := by
    simp only [Entry.answer, write, Bool.or_true, Bool.true_eq_false, and_false, if_false]
    exact congrArg (Response.mk · []) (if_neg (fun h => Bool.false_ne_true (unfaulted.symm.trans h)))
  unfold Entry.resolve
  rw [if_pos held, Entry.settle, answer]
  exact if_pos (by rw [last])

theorem rests_publishSlot {w : Fin 16} {i : Fin 4} {tag : BitVec 16} {u : SlotUnit} {s : State} (one : s.oneWaiting)
    (slots : s.slots[w] = some u)
    (fresh : ∀ (j : Fin 4) x, j ≠ u.front → u.slots[j] = some x → x.state ≠ .published (u.counter + 1)) :
    Rests s (publishSlot w i tag s) := by
  rw [publishSlot_eq slots fresh]
  have start : Rests s ((removeJob w s).withSlots w (u.publishes i ((s.work w i).bind Work.source))) := .of_same rfl
  have one₁ : ((removeJob w s).withSlots w (u.publishes i ((s.work w i).bind Work.source))).oneWaiting := one
  have one₂ := one₁.works (works_retire w u.front _)
  have posted := Rests.of_same (s := retire w u.front ((removeJob w s).withSlots w
    (u.publishes i ((s.work w i).bind Work.source)))) (t := post (.published w i (u.counter + 1) tag) _) rfl
  exact start.trans ((rests_retire one₁).trans (posted.trans (rests_allocate one₂)))

/-! ### The take of a PUBLISH commit -/

theorem Work.has_uncopied (k : Work) : k.has BlockState.uncopied = true ↔
    ∃ b : Nat, k.map[b]? = some BlockState.needsCopy ∨ k.map[b]? = some BlockState.copying := by
  rw [Work.has, List.any_eq_true]
  constructor
  · rintro ⟨x, listed, uncopied⟩
    obtain ⟨b, is⟩ := List.getElem?_of_mem listed
    refine ⟨b, ?_⟩
    rw [is]
    cases x <;> simp_all [BlockState.uncopied]
  · rintro ⟨b, is | is⟩
    · exact ⟨_, List.mem_of_getElem? is, rfl⟩
    · exact ⟨_, List.mem_of_getElem? is, rfl⟩

theorem ownerTake_publish {w : Fin 16} {c : Commit} {u : SlotUnit} {s : State} (slots : s.slots[w] = some u)
    (action : c.action = .publish) : ownerTake w c s = takePublish w c s := by
  unfold ownerTake
  rw [slots, action]

/-- The take of a PUBLISH commit with a FILLING slot (R56). -/
theorem takePublish_filling {w : Fin 16} {c : Commit} {u : SlotUnit} {i : Fin 4} {k : Work} {d : Definition} {s : State}
    (slots : s.slots[w] = some u) (filling : u.filling = some i) (definition : s.definition w = some d)
    (work : s.work w i = some k) : takePublish w c s =
      if k.written = 0 then discardTake w .empty 0 c s else
      if d.requiresFull = true ∧ k.written < d.units then discardTake w .incomplete (missingBlocks d k) c s else
      if k.has BlockState.uncopied then (sealSlot w i c.tag s, true) else (publishSlot w i c.tag s, true) := by
  have filled : s.slots[w].bind SlotUnit.filling = some i := by rw [slots]; exact filling
  unfold takePublish
  rw [filled, definition]
  dsimp only
  rw [work]

/-- After the last piece of a take: nothing but block maps and the copier. -/
theorem dropAfterTake_frame (w : Fin 16) (s : State) : dropAfterTake w s = { s with
    slots := (dropAfterTake w s).slots, copier := (dropAfterTake w s).copier } := by
  unfold dropAfterTake
  split
  · exact dropJobs_frame w s
  · rfl

theorem dropAfterTake_kept {w : Fin 16} {u : SlotUnit} {s : State} (slots : s.slots[w] = some u) :
    ∃ u', (dropAfterTake w s).slots[w] = some u' ∧ u.Keeps u' := by
  unfold dropAfterTake
  split
  · obtain ⟨u', slots', blurred⟩ := dropJobs_unit (v := w) slots
    exact ⟨u', slots', .of_blur blurred⟩
  · exact ⟨u, slots, .refl u⟩

theorem releaseTrigger_slots (trigger : Option (Fin 16 × Nat)) (taken : Bool) (s : State) :
    (releaseTrigger trigger taken s).slots = s.slots ∧ (releaseTrigger trigger taken s).views = s.views ∧
      (releaseTrigger trigger taken s).notice = s.notice := by
  unfold releaseTrigger
  split <;> exact ⟨rfl, rfl, rfl⟩

theorem State.afterTake_nil {w : Fin 16} {s : State} (empty : s.commits[w].queue = []) : s.afterTake w = .next s := by
  rw [State.afterTake, empty]

end Sys2Proof.Machine

namespace Sys2Proof
open Machine

/-- Settles O43: the owner publishes the slot (`publishSlot_publishes`); nothing after that touches what it says. -/
theorem publishTaken : Obligations.PublishTaken := by
  intro w c u i k d s one commits action unfenced slots filling behind work definition written covered copied fresh
  obtain ⟨x, slot, -⟩ : ∃ x, u.slots[i] = some x ∧ x.work = some k := by
    rw [State.work, State.slot_of slots] at work
    exact Option.bind_eq_some_iff.mp work
  have owner : ownerTake w c s = (publishSlot w i c.tag s, true) := by
    rw [ownerTake_publish slots action, takePublish_filling slots filling definition work, if_neg written,
      if_neg (fun h => absurd (covered h.1) (Nat.not_le.mpr h.2)), if_neg]
    rw [Work.has_uncopied]
    rintro ⟨b, h⟩
    exact h.elim (copied b).1 (copied b).2
  have runs := commitTake_unfenced (c := c) (by rw [commits]) unfenced
  rw [takenState, owner, commits, State.afterTake_nil (by rw [State.fenceDown_commits])] at runs
  obtain ⟨⟨u₁, slots₁, front₁, counter₁, -, ⟨x₁, slot₁, state₁⟩, former₁⟩, views, notice⟩ :=
    publishSlot_publishes c.tag slots slot behind fresh
  have rests := rests_publishSlot (i := i) (tag := c.tag) one slots fresh
  generalize publishSlot w i c.tag s = t at *
  obtain ⟨slots₂, views₂, notice₂⟩ := releaseTrigger_slots c.trigger true t
  obtain ⟨u', slots', kept⟩ := dropAfterTake_kept (s := releaseTrigger c.trigger true t) (w := w) (u := u₁)
    (by rw [slots₂]; exact slots₁)
  have frame := dropAfterTake_frame w (releaseTrigger c.trigger true t)
  obtain ⟨x', slot', -, state'⟩ := kept.published slot₁ state₁
  refine ⟨_, u', x', runs, slots', kept.front.trans front₁, kept.counter.trans counter₁, slot', state', ?_, ?_,
    State.fenceDown_commits .., fun y g is published pinned => ?_, fun m id e trigger listed same held last write sound => ?_⟩
  · show (dropAfterTake w _).views = _
    rw [frame]
    exact views₂.trans views
  · show (dropAfterTake w _).notice = _
    rw [frame]
    exact notice₂.trans notice
  · obtain ⟨y₁, slot₁', state₁', pins₁⟩ := former₁ y g is published pinned
    obtain ⟨y', slot'', pins', state''⟩ := kept.published slot₁' state₁'
    exact ⟨y', slot'', state'', pins'.trans pins₁⟩
  · have idle : e.isWaiting = false := by rw [Entry.isWaiting, held]
    have there := rests m e listed idle
    refine ⟨e.resolve true, ?_, (e.resolve_same w true).1.trans same, Entry.resolve_held held last write sound⟩
    show e.resolve true ∈ (dropAfterTake w _).responses[m]
    rw [frame, trigger]
    show e.resolve true ∈ (upd t.responses m _)[m]
    rw [upd_same]
    exact List.mem_map.mpr ⟨e, there, if_pos same⟩

end Sys2Proof
end


section
/-! SUPPORT. The other outcomes of a take (R56, R57, R60, R102). -/

namespace Sys2Proof.Machine

theorem dropAfterTake_idle {w : Fin 16} {s : State} (open' : s.windows[w].state ≠ .draining) : dropAfterTake w s = s :=
  if_neg (fun h => open' h.1)

theorem fenceDown_releaseTrigger (w : Fin 16) (queue : List Commit) (trigger : Option (Fin 16 × Nat)) (taken : Bool)
    (s : State) : (releaseTrigger trigger taken s).fenceDown w queue =
      releaseTrigger trigger taken (s.fenceDown w queue) := by
  cases trigger <;> rfl

/-- A take outside a DRAINING window, by what the owner makes of it. -/
theorem commitTake_ended {w : Fin 16} {c : Commit} {s t : State} {taken : Bool}
    (current : s.commits[w].current = some ⟨c, 0⟩) (unfenced : s.noneFenced w) (open' : s.windows[w].state ≠ .draining)
    (owner : ownerTake w c s = (t, taken)) : exec (.commitTake w) s = State.afterTake (releaseTrigger c.trigger taken
      { t with commits := s.commits.set w { queue := s.commits[w].queue, current := none, fence := false } }) w := by
  have owns := owns_ownerTake w c s
  have windows := ((owns_ownerTake w c s).trans (owns_releaseTrigger w c.trigger (ownerTake w c s).2 _)).windows
  rw [commitTake_unfenced current unfenced, takenState, dropAfterTake_idle (by rw [windows]; exact open'), owner,
    fenceDown_releaseTrigger, State.fenceDown]
  rw [owner] at owns
  rw [show t.commits = s.commits from owns.commits]

theorem sealSlot_eq {w : Fin 16} {i : Fin 4} {tag : BitVec 16} {k : Work} {s : State}
    (state : (s.slot w i).map Slot.state = some (.filling k)) : sealSlot w i tag s = s.onSlots w (fun u =>
      { u with filling := none, sealed := some i }.onSlot i (fun x => { x with state := .sealed k tag })) := by
  obtain ⟨x, slot, filling⟩ := Option.map_eq_some_iff.mp state
  obtain ⟨u, slots, slot'⟩ := State.slot_eq_some slot
  unfold sealSlot
  rw [State.updSlotUnit_eq slots, State.updSlot_onSlots, State.withSlots_onSlots, State.onSlots_eq slots]
  refine congrArg (s.withSlots w) (SlotUnit.onSlot_congr (x := x) slot' ?_)
  rw [filling]

/-- Every view of a window changes. -/
theorem forConsumers_updView (w : Fin 16) (f : View → View) (s : State) : forConsumers (fun c t => t.updView w c f) s =
    { s with views := s.views.set w (s.views[w].map (Option.map f)) } := by
  have run (l : List (Fin 8)) (nodup : l.Nodup) (t : State) : l.foldl (fun t c => t.updView w c f) t =
      { t with views := t.views.set w (Vector.ofFn (fun c : Fin 8 =>
        if c ∈ l then t.views[w][c].map f else t.views[w][c])) } := by
    induction l generalizing t with
    | nil => simp
    | cons c l ih =>
      obtain ⟨fresh, nodup⟩ := List.nodup_cons.mp nodup
      rw [List.foldl_cons, ih nodup]
      have cells (c' : Fin 8) : (t.updView w c f).views[w][c'] =
          if c' = c then t.views[w][c'].map f else t.views[w][c'] := by
        rw [show (t.updView w c f).views[w][c'] = (t.updView w c f).view w c' from rfl]
        split
        · next here =>
          subst here
          exact State.updView_get ..
        · next other => exact State.updView_other _ _ (.inr other)
      have same : Vector.ofFn (fun c' : Fin 8 => if c' ∈ l then (t.updView w c f).views[w][c'].map f
          else (t.updView w c f).views[w][c']) = Vector.ofFn (fun c' : Fin 8 =>
            if c' ∈ c :: l then t.views[w][c'].map f else t.views[w][c']) := by
        refine congrArg Vector.ofFn (funext fun c' => ?_)
        rw [cells]
        by_cases here : c' = c
        · subst here
          simp [fresh]
        · simp [here]
      rw [same]
      simp [State.updView, upd]
  refine (run consumerNumbers (by decide) s).trans ?_
  have all (c : Fin 8) : c ∈ consumerNumbers := by revert c; decide
  simp only [all, if_true]
  refine congrArg (fun v => { s with views := s.views.set w v }) (Vector.ext fun i h => ?_)
  simp

theorem takeAdvance_eq {w : Fin 16} {c : Commit} {d : Definition} {u : RollState} {s : State}
    (definition : s.definition w = some d) (rolls : s.rolls[w] = some u) : takeAdvance w c s = ({ s with
        rolls := s.rolls.set w (some { u with
          origin := (u.origin + 1) % d.ring
          serial := u.serial + 1
          seeing := u.seeing + consumerNumbers.countP (fun c => (s.view w c).any (fun v => v.state.entersSeeing d)) })
        views := s.views.set w (s.views[w].map (Option.map (fun v => { v with state := v.state.advance })))
        notice := s.notice.take (.advanced w (u.serial + 1) c.tag) s.timebase }, true) := by
  unfold takeAdvance
  rw [definition, rolls]
  dsimp only
  refine congrArg (·, true) (congrArg (post (.advanced w (u.serial + 1) c.tag)) (?_ : forConsumers _ _ = { s with
        rolls := s.rolls.set w (some { u with
          origin := (u.origin + 1) % d.ring
          serial := u.serial + 1
          seeing := u.seeing + consumerNumbers.countP (fun c => (s.view w c).any (fun v => v.state.entersSeeing d)) })
        views := s.views.set w (s.views[w].map (Option.map (fun v => { v with state := v.state.advance }))) }))
  rw [State.updRoll_eq rolls, forConsumers_updView]
  rfl

/-! ### A discarded slot (R60, R63) -/

/-- The slots of a window as slot `i` is discarded, its source not yet retired. -/
def SlotUnit.discards (u : SlotUnit) (i : Fin 4) (source : Option (Fin 4)) : SlotUnit :=
  let v := { u with
    filling := if u.filling = some i then none else u.filling
    sealed := if u.sealed = some i then none else u.sealed }.onSlot i Slot.leave
  match source with
  | none => v
  | some f => v.onSlot f (fun x => { x with hold := false })

theorem SlotUnit.discards_rest (u : SlotUnit) (i : Fin 4) (source : Option (Fin 4)) :
    (u.discards i source).front = u.front ∧ (u.discards i source).counter = u.counter ∧
      (u.discards i source).filling = (if u.filling = some i then none else u.filling) ∧
      (u.discards i source).sealed = (if u.sealed = some i then none else u.sealed) := by
  cases source <;> exact ⟨rfl, rfl, rfl, rfl⟩

theorem SlotUnit.discards_cell (u : SlotUnit) (i j : Fin 4) (source : Option (Fin 4)) : ∃ hold : Bool → Bool,
    (u.discards i source).slots[j] = u.slots[j].map (fun x =>
      { x with hold := hold x.hold, state := if j = i then x.leave.state else x.state }) := by
  have left : ({ u with
      filling := if u.filling = some i then none else u.filling
      sealed := if u.sealed = some i then none else u.sealed }.onSlot i Slot.leave).slots[j] =
      u.slots[j].map (fun x => { x with state := if j = i then x.leave.state else x.state }) := by
    rw [SlotUnit.onSlot_get]
    split
    · rfl
    · exact Option.map_id'.symm
  unfold SlotUnit.discards
  cases source with
  | none => exact ⟨id, left⟩
  | some f =>
    dsimp only
    rw [SlotUnit.onSlot_get, left]
    split
    · exact ⟨fun _ => false, Option.map_map ..⟩
    · exact ⟨id, rfl⟩

theorem SlotUnit.discards_slot {u : SlotUnit} {i j : Fin 4} {x : Slot} (source : Option (Fin 4)) (is : u.slots[j] = some x) :
    ∃ hold, (u.discards i source).slots[j] = some { x with
      hold := hold, state := if j = i then x.leave.state else x.state } := by
  obtain ⟨hold, cell⟩ := u.discards_cell i j source
  exact ⟨hold x.hold, by rw [cell, is]; rfl⟩

theorem discardSlot_eq {w : Fin 16} {i : Fin 4} {u : SlotUnit} {s : State} (slots : s.slots[w] = some u) :
    discardSlot w i s = match (s.work w i).bind Work.source with
      | none => s.withSlots w (u.discards i ((s.work w i).bind Work.source))
      | some f => retire w f (s.withSlots w (u.discards i ((s.work w i).bind Work.source))) := by
  unfold discardSlot
  rw [State.updSlotUnit_eq slots]
  dsimp only
  rw [State.updSlot_onSlots, State.withSlots_onSlots]
  generalize (s.work w i).bind Work.source = source
  cases source with
  | none => rfl
  | some f => exact congrArg (retire w f) (s.withSlots_onSlots w _ (fun v => v.onSlot f (fun x => { x with hold := false })))

/-- An allocation attempt opens a FREE slot or leaves the FILLING slot as it was. -/
theorem allocate_filling {w : Fin 16} {u : SlotUnit} {s : State} (slots : s.slots[w] = some u) :
    ∃ u', (allocate w s).slots[w] = some u' ∧
      (u'.filling = u.filling ∨ ∃ n x, u'.filling = some n ∧ u.slots[n] = some x ∧ x.state = .free) := by
  rcases allocate_cases slots with idle | ⟨d, i, x, n, u', -, -, -, -, slot, free, slots', opens⟩
  · exact ⟨u, by rw [idle]; exact slots, .inl rfl⟩
  · exact ⟨u', slots', .inr ⟨i, x, opens.filling, slot, free⟩⟩

/-- What retirement and allocation leave of a RETIRING slot `i` that is not the FILLING one. -/
structure SlotUnit.Abandons (i : Fin 4) (u u' : SlotUnit) : Prop where
  front    : u'.front = u.front
  counter  : u'.counter = u.counter
  unfilled : u'.filling ≠ some i
  slot     : ∃ x', u'.slots[i] = some x' ∧ x'.state = .retiring

theorem allocate_abandons {w : Fin 16} {i : Fin 4} {u : SlotUnit} {x : Slot} {s : State} (slots : s.slots[w] = some u)
    (unfilled : u.filling ≠ some i) (slot : u.slots[i] = some x) (retiring : x.state = .retiring) :
    ∃ u', (allocate w s).slots[w] = some u' ∧ u.Abandons i u' := by
  obtain ⟨u', slots', filling⟩ := allocate_filling slots
  obtain ⟨v, is, kept⟩ := allocate_kept slots
  obtain rfl := Option.some.inj (slots'.symm.trans is)
  obtain ⟨x', slot', -, state⟩ := kept.slot i x slot
  refine ⟨u', slots', kept.front, kept.counter, ?_, x', slot',
    (state (by rw [retiring]; nofun) (by rw [Slot.work, retiring])).trans retiring⟩
  rcases filling with same | ⟨n, y, filled, is', free⟩
  · rwa [same]
  · rw [filled]
    intro here
    obtain rfl := Option.some.inj here
    obtain rfl := Option.some.inj (slot.symm.trans is')
    rw [retiring] at free
    cases free

theorem retire_abandons {w : Fin 16} {i f : Fin 4} {u : SlotUnit} {x : Slot} {s : State} (slots : s.slots[w] = some u)
    (unfilled : u.filling ≠ some i) (slot : u.slots[i] = some x) (retiring : x.state = .retiring) :
    ∃ u', (retire w f s).slots[w] = some u' ∧ u.Abandons i u' := by
  by_cases goes : ∃ x, u.slots[f] = some x ∧ x.isPublished = true ∧ u.front ≠ f ∧ x.pins = 0 ∧ x.hold = false
  · obtain ⟨y, is, goes⟩ := goes
    have apart : i ≠ f := by
      rintro rfl
      obtain rfl := Option.some.inj (slot.symm.trans is)
      have published := goes.1
      rw [Slot.isPublished, retiring] at published
      cases published
    have slot' : (u.onSlot f Slot.leave).slots[i] = some x := by rw [SlotUnit.onSlot_get, if_neg apart, slot]
    rw [retire_goes slots is goes]
    split
    · obtain ⟨u', slots', h⟩ := allocate_abandons (i := i) (s := s.withSlots w (u.onSlot f Slot.leave))
        (State.withSlots_slots ..) unfilled slot' retiring
      exact ⟨u', slots', h.front, h.counter, h.unfilled, h.slot⟩
    · exact ⟨_, State.withSlots_slots .., rfl, rfl, unfilled, x, slot', retiring⟩
  · rw [retire_idle slots (fun x is h => goes ⟨x, is, h⟩)]
    exact ⟨u, slots, rfl, rfl, unfilled, x, slot, retiring⟩

theorem shifts_discardSlot (w : Fin 16) (i : Fin 4) (s : State) : Shifts s (discardSlot w i s) := by
  unfold discardSlot
  extract_lets source t t'
  have start : Shifts s t' := rfl
  clear_value source
  split
  · exact start
  · exact (start.trans (shifts_updSlot ..)).trans (shifts_retire ..)

theorem shifts_dropJobs (w : Fin 16) (s : State) : Shifts s (dropJobs w s) := by
  rw [Shifts, dropJobs_frame w s]

theorem Slot.work_of_free {x : Slot} (free : x.state = .free) : x.work = none := by rw [Slot.work, free]

/-! ### The take of an ABANDON commit -/

/-- A take with no commit queued, by what the owner makes of it. -/
theorem commitTake_last {w : Fin 16} {c : Commit} {s t : State} {taken : Bool}
    (current : s.commits[w].current = some ⟨c, 0⟩) (unfenced : s.noneFenced w) (open' : s.windows[w].state ≠ .draining)
    (empty : s.commits[w].queue = []) (owner : ownerTake w c s = (t, taken)) :
    ∃ r, exec (.commitTake w) s = .next r ∧ r.slots = t.slots ∧ r.copier = t.copier ∧ r.notice = t.notice ∧
      r.commits[w] = { queue := [], current := none, fence := false } := by
  have ended (x : State) (commits : x.commits[w] = { queue := s.commits[w].queue, current := none, fence := false }) :
      (releaseTrigger c.trigger taken x).commits[w] = { queue := [], current := none, fence := false } ∧
        (releaseTrigger c.trigger taken x).copier = x.copier := by
    rw [empty] at commits
    cases c.trigger <;> exact ⟨commits, rfl⟩
  obtain ⟨commits, copier⟩ := ended { t with
    commits := s.commits.set w { queue := s.commits[w].queue, current := none, fence := false } } (Vector.getElem_set_self ..)
  obtain ⟨slots, -, notice⟩ := releaseTrigger_slots c.trigger taken { t with
    commits := s.commits.set w { queue := s.commits[w].queue, current := none, fence := false } }
  refine ⟨_, ?_, slots, copier, notice, commits⟩
  rw [commitTake_ended current unfenced open' owner]
  exact State.afterTake_nil (by rw [commits])

theorem ownerTake_abandon {w : Fin 16} {c : Commit} {u : SlotUnit} {i : Fin 4} {s : State} (slots : s.slots[w] = some u)
    (filling : u.filling = some i) (action : c.action = .abandon) : ownerTake w c s =
      (allocate w (post (.abandoned w i) (dropJobs w (discardSlot w i s))), true) := by
  have filled : s.slots[w].bind SlotUnit.filling = some i := by rw [slots]; exact filling
  unfold ownerTake
  rw [slots, action]
  dsimp only
  rw [takeAbandon, filled]

/-- The notice of an abandoned slot, whatever is allocated. -/
theorem takeAbandon_notice (w : Fin 16) (i : Fin 4) (s : State) :
    (allocate w (post (.abandoned w i) (dropJobs w (discardSlot w i s)))).notice =
      s.notice.take (.abandoned w i) s.timebase := by
  have before := (shifts_discardSlot w i s).trans (shifts_dropJobs w (discardSlot w i s))
  refine (shifts_allocate ..).notice.trans ?_
  show (dropJobs w (discardSlot w i s)).notice.take _ (dropJobs w (discardSlot w i s)).timebase = _
  rw [before.notice, before.timebase]

/-- A discarded slot with pieces in flight is RETIRING, and what is allocated then is another. -/
theorem takeAbandon_retires {w : Fin 16} {i : Fin 4} {u : SlotUnit} {x : Slot} {s : State} (slots : s.slots[w] = some u)
    (filling : u.filling = some i) (slot : u.slots[i] = some x) (flying : x.inFlight ≠ 0) :
    ∃ u', (allocate w (post (.abandoned w i) (dropJobs w (discardSlot w i s)))).slots[w] = some u' ∧
      u.Abandons i u' := by
  have discarded : ∃ u₁, (discardSlot w i s).slots[w] = some u₁ ∧ u.Abandons i u₁ := by
    rw [discardSlot_eq slots]
    generalize (s.work w i).bind Work.source = source
    obtain ⟨front, counter, unfilled, -⟩ := u.discards_rest i source
    obtain ⟨hold, left⟩ := SlotUnit.discards_slot (i := i) source slot
    rw [if_pos filling] at unfilled
    rw [if_pos rfl] at left
    have retiring : x.leave.state = .retiring := if_neg (fun h => flying h.1)
    cases source with
    | none => exact ⟨_, State.withSlots_slots .., front, counter, by rw [unfilled]; nofun, _, left, retiring⟩
    | some f =>
      obtain ⟨u', slots', h⟩ := retire_abandons (i := i) (f := f) (s := s.withSlots w (u.discards i (some f)))
        (State.withSlots_slots ..) (by rw [unfilled]; nofun) left retiring
      exact ⟨u', slots', h.front.trans front, h.counter.trans counter, h.unfilled, h.slot⟩
  obtain ⟨u₁, slots₁, h₁⟩ := discarded
  obtain ⟨x₁, slot₁, retiring₁⟩ := h₁.slot
  obtain ⟨u₂, slots₂, blurred⟩ := dropJobs_unit (v := w) slots₁
  obtain ⟨filling₂, -, front₂, counter₂, -⟩ := SlotUnit.of_blur blurred
  obtain ⟨x₂, slot₂, seen⟩ := SlotUnit.slot_of_blur blurred slot₁
  obtain rfl := Slot.same_of_blur seen (by rw [Slot.work, retiring₁])
  obtain ⟨u₃, slots₃, h₃⟩ := allocate_abandons (i := i) (s := post (.abandoned w i) (dropJobs w (discardSlot w i s)))
    slots₂ (by rw [filling₂]; exact h₁.unfilled) slot₂ retiring₁
  exact ⟨u₃, slots₃, h₃.front.trans (front₂.trans h₁.front), h₃.counter.trans (counter₂.trans h₁.counter),
    h₃.unfilled, h₃.slot⟩

/-- A discarded slot out of use is FREE, and the lowest-numbered FREE slot is allocated. -/
theorem takeAbandon_opens {w : Fin 16} {d : Definition} {i n : Fin 4} {u : SlotUnit} {k : Work} {x z : Slot} {s : State}
    (live : s.windows[w].state = .live) (definition : s.definition w = some d) (slots : s.slots[w] = some u)
    (filling : u.filling = some i) (unsealed : u.sealed = none) (work : s.work w i = some k) (slot : u.slots[i] = some x)
    (unused : x.inFlight = 0 ∧ x.waiting = 0) (shown : ∀ f, k.source = some f → f = u.front) (target : u.slots[n] = some z)
    (free : n = i ∨ z.state = .free) (lowest : ∀ j < n, j ≠ i ∧ ∀ y, u.slots[j] = some y → y.state ≠ .free) :
    let t := allocate w (post (.abandoned w i) (dropJobs w (discardSlot w i s)))
    (∃ u' z' k', t.slots[w] = some u' ∧ u'.front = u.front ∧ u'.counter = u.counter ∧ u'.filling = some n ∧
      u'.slots[n] = some z' ∧ z'.state = .filling k' ∧ k'.Fresh d u.front ∧
      (n ≠ i → ∃ x', u'.slots[i] = some x' ∧ x'.state = .free)) ∧
    (s.link.part = .running → d.isBackfill = true → t.copier.jobs[w] = some n) := by
  intro t
  have owns := (owns_discardSlot w i s).trans (owns_dropJobs w w (discardSlot w i s))
  obtain ⟨front, counter, unfilled, sealed⟩ := u.discards_rest i ((s.work w i).bind Work.source)
  have discarded : discardSlot w i s = s.withSlots w (u.discards i ((s.work w i).bind Work.source)) := by
    rw [discardSlot_eq slots, work]
    dsimp only [Option.bind_some]
    cases source : k.source with
    | none => rfl
    | some f =>
      exact retire_idle (State.withSlots_slots ..) (fun y _ h => h.2.1
        (((u.discards_rest i (some f)).1).trans (shown f source).symm))
  have cell (j : Fin 4) := u.discards_cell i j ((s.work w i).bind Work.source)
  have left : x.leave.state = .free := if_pos unused
  generalize u.discards i ((s.work w i).bind Work.source) = v at *
  have slots₁ : (discardSlot w i s).slots[w] = some v := by rw [discarded, State.withSlots_slots]
  obtain ⟨v₂, slots₂, blurred⟩ := dropJobs_unit (v := w) slots₁
  obtain ⟨filling₂, sealed₂, front₂, counter₂, -⟩ := SlotUnit.of_blur blurred
  have freed (y : Slot) (j : Fin 4) (is : u.slots[j] = some y) (free' : j = i ∨ y.state = .free) :
      ∃ y', v₂.slots[j] = some y' ∧ y'.state = .free := by
    obtain ⟨hold, same⟩ := cell j
    rw [is] at same
    obtain ⟨y₂, slot₂, seen⟩ := SlotUnit.slot_of_blur blurred same
    have state : (if j = i then y.leave.state else y.state) = SlotState.free := by
      split
      · next here =>
        subst here
        exact Option.some.inj (is.symm.trans slot) ▸ left
      · next other => exact free'.resolve_left other
    exact ⟨y₂, slot₂, (congrArg Slot.state (Slot.same_of_blur seen (Slot.work_of_free state))).trans state⟩
  obtain ⟨z₂, slot_n, free_n⟩ := freed z n target free
  have below (j : Fin 4) (lt : j < n) (y₂ : Slot) (is : v₂.slots[j] = some y₂) : y₂.state ≠ .free := by
    intro free₂
    obtain ⟨y₁, slot₁, seen⟩ := SlotUnit.slot_of_blur blurred.symm is
    obtain rfl : y₁ = y₂ := Slot.same_of_blur seen (Slot.work_of_free free₂)
    obtain ⟨hold, same⟩ := cell j
    rw [slot₁] at same
    obtain ⟨y, slot₀, rfl⟩ := Option.map_eq_some_iff.mp same.symm
    obtain ⟨other, used⟩ := lowest j lt
    exact used y slot₀ ((if_neg other).symm.trans free₂)
  obtain ⟨⟨m, u', slots', opens⟩, job⟩ := allocate_opens (s := post (.abandoned w i) (dropJobs w (discardSlot w i s)))
    (by rw [show (post _ (dropJobs w (discardSlot w i s))).windows = s.windows from owns.windows]; exact live)
    ((owns.definition w).trans definition) slots₂ (filling₂.trans (unfilled.trans (if_pos filling)))
    (sealed₂.trans (sealed.trans (by rw [unsealed]; exact ite_self _))) slot_n free_n below
  obtain ⟨z', k', slot', filled, fresh, -⟩ := opens.slot
  refine ⟨⟨u', z', k', slots', opens.front.trans (front₂.trans front), opens.counter.trans (counter₂.trans counter),
    opens.filling, slot', filled, (front₂.trans front) ▸ fresh, fun other => ?_⟩, fun running => job ?_⟩
  · obtain ⟨x₂, slot_i, free_i⟩ := freed x i slot (.inl rfl)
    obtain ⟨x', hold, slot_i', copies⟩ := opens.others i other.symm x₂ slot_i
    refine ⟨x', slot_i', ?_⟩
    rw [copies.same (Slot.work_of_free free_i)]
    exact free_i
  · exact (congrArg Link.part owns.link).trans running

end Sys2Proof.Machine
end


section
/-! SUPPORT. The fenced writes of a LIVE window, classified afresh when the fence drops (R131, step 4). -/

namespace Sys2Proof.Machine

/-! ### One master's turn -/

/-- From `s` to `t` the other masters' waiting requests and stall timers are as they were. -/
def Elsewhere (m : Fin 16) (s t : State) : Prop :=
  ∀ n : Fin 16, n ≠ m → t.current n = s.current n ∧ t.stallTimers[n] = s.stallTimers[n]

theorem elsewhere_updEntry {m : Fin 16} {id : Nat} {f : Entry → Entry} {s t : State} {x : Option Timer}
    (responses : t.responses = (s.updEntry m id f).responses) (timers : t.stallTimers = s.stallTimers.set m x) :
    Elsewhere m s t := by
  intro n other
  refine ⟨?_, ?_⟩
  · exact (congrArg (fun r : Vector (List Entry) 16 => r[n].find? Entry.isWaiting) responses).trans
      (State.current_updEntry_ne s other id f)
  · rw [timers]
    exact Vector.getElem_set_ne _ _ (fun h => other (Fin.ext h.symm))

theorem Vector.set_same {α : Type} {n : Nat} (v : Vector α n) (i : Fin n) : v.set i v[i] = v := by simp

/-- What the FILLING slot's window becomes as a write is mapped. -/
theorem mapWaitingToSlot_cells {m w : Fin 16} {i : Fin 4} {e : Entry} {d : Definition} {k : Work} {s : State}
    (current : s.current m = some e) (definition : s.definition w = some d) (work : s.work w i = some k) :
    (mapWaitingToSlot m w i s).responses = (s.updEntry m e.id (fun x => { x with
        stage := .waiting .mapped, pieces := (cut d e.request).map (mapWritePiece d k i)
        closing := closesSlotted d e.request })).responses ∧
      (mapWaitingToSlot m w i s).stallTimers = s.stallTimers.set m none ∧
      (mapWaitingToSlot m w i s).rolls = s.rolls := by
  unfold mapWaitingToSlot
  rw [current, definition, work]
  dsimp only
  have listed := chooses_listFirstNeedsCopy w i ((cut d e.request).map (mapWritePiece d k i))
    (captureSlots w ((cut d e.request).map (mapWritePiece d k i)) (stopTimer m (s.updEntry m e.id (fun x => { x with
      stage := .waiting .mapped, pieces := (cut d e.request).map (mapWritePiece d k i)
      closing := closesSlotted d e.request }))))
  rw [listed.responses, listed.stallTimers, show (listFirstNeedsCopy ..).rolls = _ from congrArg State.rolls listed.frame,
    captureSlots_writes, captureSlots_same]
  exact ⟨rfl, rfl, rfl⟩

theorem mapWaitingToSlot_idle {m w : Fin 16} {i : Fin 4} {s : State}
    (idle : s.current m = none ∨ s.definition w = none ∨ s.work w i = none) : mapWaitingToSlot m w i s = s := by
  unfold mapWaitingToSlot
  split
  · next current definition work =>
    rw [current, definition, work] at idle
    rcases idle with h | h | h <;> cases h
  · rfl

/-- The pieces of a write of a rolling window, as R94 maps them. -/
def linePieces (d : Definition) (u : RollState) (r : Request) : List Piece := (cut d r).map (mapLineWrite d u)

theorem mapWaitingToRing_eq {m w : Fin 16} {e : Entry} {d : Definition} {u : RollState} {s : State}
    (current : s.current m = some e) (definition : s.definition w = some d) (rolls : s.rolls[w] = some u) :
    ∃ x, mapWaitingToRing m w s = { s.updEntry m e.id (fun x => { x with
        stage := .waiting .mapped, pieces := linePieces d u e.request, closing := closesRolling d e.request }) with
      stallTimers := s.stallTimers.set m x } := by
  unfold mapWaitingToRing
  rw [current, definition, rolls]
  dsimp only
  split
  · refine ⟨some ⟨s.timebase, d.limit⟩, ?_⟩
    unfold startTimer
    rw [show (s.updEntry m e.id (fun x => { x with
      stage := .waiting .mapped, pieces := (cut d e.request).map (mapLineWrite d u)
      closing := closesRolling d e.request })).definition w = some d from definition]
    rfl
  · exact ⟨s.stallTimers[m], by rw [Vector.set_same]; rfl⟩

/-- What a write's place in its window leaves of the window's slots: which of them is FILLING or SEALED, and which have a
block map. -/
structure SlotUnit.Holds (u u' : SlotUnit) : Prop where
  filling : u'.filling = u.filling
  sealed  : u'.sealed = u.sealed
  work    : ∀ i : Fin 4, (u'.slots[i].bind Slot.work).isSome = (u.slots[i].bind Slot.work).isSome

theorem SlotUnit.Holds.refl (u : SlotUnit) : u.Holds u := ⟨rfl, rfl, fun _ => rfl⟩

theorem SlotUnit.Holds.trans {u v z : SlotUnit} (a : u.Holds v) (b : v.Holds z) : u.Holds z :=
  ⟨b.filling.trans a.filling, b.sealed.trans a.sealed, fun i => (b.work i).trans (a.work i)⟩

theorem SlotUnit.holds_of_expect {u u' : SlotUnit} {i : Fin 4} {n : Nat} (h : (u.onSlot i (Slot.expect n)).Copies u') :
    u.Holds u' := by
  refine ⟨h.filling, h.sealed, fun j => ?_⟩
  have expected : ((u.onSlot i (Slot.expect n)).slots[j].bind Slot.work) = u.slots[j].bind Slot.work := by
    rw [SlotUnit.onSlot_get]
    split
    · cases u.slots[j] <;> rfl
    · rfl
  rw [← expected]
  have cell := h.slots j
  generalize (u.onSlot i (Slot.expect n)).slots[j] = a at cell
  generalize u'.slots[j] = b at cell
  cases cell with
  | none => rfl
  | some copies =>
    obtain ⟨f, -, rfl⟩ := copies
    exact (congrArg Option.isSome (Slot.work_updWork f _)).trans (Option.isSome_map ..)

/-- Window `w`'s slots and roll state stay what a write's place depends on. -/
structure Steady (w : Fin 16) (s t : State) : Prop where
  shifts : Shifts s t
  rolls  : t.rolls = s.rolls
  slots  : Option.Rel SlotUnit.Holds s.slots[w] t.slots[w]

namespace Steady

theorem refl (w : Fin 16) (s : State) : Steady w s s := ⟨.refl s, rfl, rel_refl SlotUnit.Holds.refl _⟩

theorem trans {w : Fin 16} {s t u : State} (a : Steady w s t) (b : Steady w t u) : Steady w s u :=
  ⟨a.shifts.trans b.shifts, b.rolls.trans a.rolls,
    rel_trans (r := SlotUnit.Holds) (fun _ _ _ => SlotUnit.Holds.trans) a.slots b.slots⟩

end Steady

/-- Where the write `e` of master `m` stands once it has its place in window `w` (R51, R94). -/
structure Placed (w m : Fin 16) (d : Definition) (e : Entry) (t : State) : Prop where
  lined   : ∀ u, t.slots[w] = none → t.rolls[w] = some u → ∃ x, t.current m = some x ∧ x.id = e.id ∧
    x.stage = .waiting .mapped ∧ x.pieces = linePieces d u e.request
  slotted : ∀ u i, t.slots[w] = some u → u.filling = some i → (t.work w i).isSome = true → ∃ x k, t.current m = some x ∧
    x.id = e.id ∧ x.stage = .waiting .mapped ∧ x.pieces = (cut d e.request).map (mapWritePiece d k i)
  waits   : ∀ u, t.slots[w] = some u → u.filling = none → ∃ x, t.current m = some x ∧ x.id = e.id ∧
    x.stage = .waiting (.slot (decide (u.sealed = none))) ∧
    (u.sealed = none → t.stallTimers[m] = some ⟨t.timebase, d.limit⟩)

theorem State.work_isSome {s : State} {w : Fin 16} {u : SlotUnit} (slots : s.slots[w] = some u) (i : Fin 4) :
    s.work w i = u.slots[i].bind Slot.work := by rw [State.work, State.slot_of slots]

/-- Another master's turn leaves the place of this one's write. -/
theorem Placed.steady {w m : Fin 16} {d : Definition} {e : Entry} {s t : State} (h : Placed w m d e s)
    (steady : Steady w s t) (current : t.current m = s.current m) (timer : t.stallTimers[m] = s.stallTimers[m]) :
    Placed w m d e t := by
  have unit (u' : SlotUnit) (is : t.slots[w] = some u') : ∃ u, s.slots[w] = some u ∧ u.Holds u' := by
    have cell := steady.slots
    rw [is] at cell
    cases slots : s.slots[w] with
    | none => rw [slots] at cell; cases cell
    | some u => rw [slots] at cell; cases cell with | some h => exact ⟨u, rfl, h⟩
  refine ⟨fun u empty rolls => ?_, fun u' i is filling work => ?_, fun u' is unfilled => ?_⟩
  · have empty' : s.slots[w] = none := by
      have cell := steady.slots
      rw [empty] at cell
      cases slots : s.slots[w] with
      | none => rfl
      | some u => rw [slots] at cell; cases cell
    rw [current]
    exact h.lined u empty' (steady.rolls ▸ rolls)
  · obtain ⟨u, slots, holds⟩ := unit u' is
    rw [current]
    refine h.slotted u i slots (holds.filling ▸ filling) ?_
    rw [State.work_isSome slots, ← holds.work i, ← State.work_isSome is]
    exact work
  · obtain ⟨u, slots, holds⟩ := unit u' is
    rw [current, timer, holds.sealed, steady.shifts.timebase]
    exact h.waits u slots (holds.filling ▸ unfilled)

theorem placeWrite_placed {w m : Fin 16} {d : Definition} {e : Entry} {s : State} (one : s.oneWaiting)
    (current : s.current m = some e) (down : s.commits[w].fence = false) (definition : s.definition w = some d) :
    Steady w s (placeWrite m w s) ∧ Elsewhere m s (placeWrite m w s) ∧ Placed w m d e (placeWrite m w s) := by
  have changed {t : State} {f : Entry → Entry} (responses : t.responses = (s.updEntry m e.id f).responses)
      (waits : (f e).isWaiting = true) : t.current m = some (f e) :=
    (congrArg (fun r : Vector (List Entry) 16 => r[m].find? Entry.isWaiting) responses).trans
      ((one.current_updEntry current f).trans (if_pos waits))
  have calm (x : State) (same : x = s) : Steady w s x ∧ Elsewhere m s x := by
    rw [same]
    exact ⟨.refl w s, fun _ _ => ⟨rfl, rfl⟩⟩
  unfold placeWrite
  rw [current]
  dsimp only
  rw [if_neg (by rw [down]; exact Bool.false_ne_true)]
  cases slots : s.slots[w] with
  | none =>
    dsimp only
    cases rolls : s.rolls[w] with
    | none =>
      have idle : mapWaitingToRing m w s = s := by rw [mapWaitingToRing, current, definition, rolls]
      obtain ⟨steady, elsewhere⟩ := calm _ idle
      refine ⟨steady, elsewhere, fun u _ is => ?_, fun u i is => ?_, fun u is => ?_⟩
      · rw [idle, rolls] at is
        cases is
      · rw [idle, slots] at is
        cases is
      · rw [idle, slots] at is
        cases is
    | some u =>
      obtain ⟨x, is⟩ := mapWaitingToRing_eq current definition rolls
      rw [is]
      refine ⟨⟨rfl, rfl, rel_refl SlotUnit.Holds.refl _⟩, elsewhere_updEntry rfl rfl, fun u' _ rolls' => ?_,
        fun u i is' => ?_, fun u is' => ?_⟩
      · obtain rfl := Option.some.inj (rolls.symm.trans rolls')
        exact ⟨_, changed (f := fun x => { x with
          stage := .waiting .mapped, pieces := linePieces d u e.request, closing := closesRolling d e.request }) rfl rfl,
          rfl, rfl, rfl⟩
      · cases slots.symm.trans is'
      · cases slots.symm.trans is'
  | some u =>
    dsimp only
    cases filling : u.filling with
    | some i =>
      dsimp only
      cases work : s.work w i with
      | none =>
        have idle : mapWaitingToSlot m w i s = s := mapWaitingToSlot_idle (.inr (.inr work))
        obtain ⟨steady, elsewhere⟩ := calm _ idle
        refine ⟨steady, elsewhere, fun u' empty => ?_, fun u' j is filling' work' => ?_, fun u' is unfilled => ?_⟩
        · rw [idle, slots] at empty
          cases empty
        · rw [idle] at is work'
          obtain rfl := Option.some.inj (slots.symm.trans is)
          obtain rfl := Option.some.inj (filling.symm.trans filling')
          rw [work] at work'
          cases work'
        · rw [idle] at is
          obtain rfl := Option.some.inj (slots.symm.trans is)
          cases filling.symm.trans unfilled
      | some k =>
        obtain ⟨responses, timers, rolls⟩ := mapWaitingToSlot_cells current definition work
        obtain ⟨⟨n, u', slots', copies⟩, -⟩ := mapWaitingToSlot_expects (m := m) (i := i) slots
        have holds := SlotUnit.holds_of_expect copies
        refine ⟨⟨shifts_mapWaitingToSlot .., rolls, by rw [slots, slots']; exact .some holds⟩,
          elsewhere_updEntry responses timers, fun v empty => ?_, fun v j is filling' _ => ?_, fun v is unfilled => ?_⟩
        · cases slots'.symm.trans empty
        · obtain rfl := Option.some.inj (slots'.symm.trans is)
          obtain rfl := Option.some.inj ((holds.filling.trans filling).symm.trans filling')
          exact ⟨_, k, changed responses rfl, rfl, rfl, rfl⟩
        · obtain rfl := Option.some.inj (slots'.symm.trans is)
          cases (holds.filling.trans filling).symm.trans unfilled
    | none =>
      dsimp only
      have standing {t : State} {x : Option Timer} {b : Bool} (shifts : Shifts s t) (rolls : t.rolls = s.rolls)
          (slots' : t.slots = s.slots) (responses : t.responses = (s.updEntry m e.id (fun x =>
            { x with stage := .waiting (.slot b) })).responses) (timers : t.stallTimers = s.stallTimers.set m x)
          (timed : b = decide (u.sealed = none) ∧ (u.sealed = none → x = some ⟨s.timebase, d.limit⟩)) :
          Steady w s t ∧ Elsewhere m s t ∧ Placed w m d e t := by
        have unit : t.slots[w] = some u := (congrArg (fun x : Vector (Option SlotUnit) 16 => x[w]) slots').trans slots
        refine ⟨⟨shifts, rolls, by rw [slots']; exact rel_refl SlotUnit.Holds.refl _⟩, elsewhere_updEntry responses timers,
          fun u' empty => ?_, fun u' j is filled => ?_, fun u' is _ => ?_⟩
        · cases unit.symm.trans empty
        · obtain rfl := Option.some.inj (unit.symm.trans is)
          cases filling.symm.trans filled
        · obtain rfl := Option.some.inj (unit.symm.trans is)
          refine ⟨_, changed responses rfl, rfl, by rw [timed.1], fun unsealed => ?_⟩
          rw [timers, shifts.timebase, ← timed.2 unsealed]
          exact Vector.getElem_set_self ..
      by_cases unsealed : u.sealed = none
      · have started : startTimer m w (s.updEntry m e.id (fun x => { x with stage := .waiting (.slot true) })) =
            { s.updEntry m e.id (fun x => { x with stage := .waiting (.slot true) }) with
              stallTimers := s.stallTimers.set m (some ⟨s.timebase, d.limit⟩) } := by
          unfold startTimer
          rw [show (s.updEntry m e.id (fun x => { x with stage := .waiting (.slot true) })).definition w = some d from
            definition]
          rfl
        rw [if_pos unsealed, started]
        exact standing rfl rfl rfl rfl rfl ⟨(decide_eq_true unsealed).symm, fun _ => rfl⟩
      · rw [if_neg unsealed]
        exact standing rfl rfl rfl rfl (Vector.set_same ..).symm
          ⟨(decide_eq_false unsealed).symm, fun h => absurd h unsealed⟩

/-! ### The masters in order -/

/-- After the turns of the masters `done`, in a LIVE window. -/
structure Replaced (w : Fin 16) (d : Definition) (s : State) (done : List (Fin 16)) (t : State) : Prop where
  one    : t.oneWaiting
  steady : Steady w s t
  rest   : ∀ n, n ∉ done → t.current n = s.current n
  placed : ∀ n, n ∈ done → ∀ e, s.current n = some e → e.fencedAt w = true → Placed w n d e t

theorem Replaced.idle {w m : Fin 16} {d : Definition} {s : State} {done : List (Fin 16)} {t : State}
    (h : Replaced w d s done t) (fresh : m ∉ done) (unfenced : ∀ e, t.current m = some e → e.fencedAt w = false) :
    Replaced w d s (done ++ [m]) t := by
  refine ⟨h.one, h.steady, fun n other => h.rest n (fun listed => other (List.mem_append_left _ listed)),
    fun n listed e current fenced => ?_⟩
  rcases List.mem_append.mp listed with listed | here
  · exact h.placed n listed e current fenced
  · obtain rfl := List.mem_singleton.mp here
    rw [unfenced e ((h.rest n fresh).trans current)] at fenced
    cases fenced

theorem reclassifyFenced_live {w : Fin 16} {d : Definition} {s : State} (one : s.oneWaiting)
    (live : s.windows[w].state = .live) (down : s.commits[w].fence = false) (definition : s.definition w = some d) :
    Replaced w d s masters (reclassifyFenced w s) := by
  unfold reclassifyFenced
  refine forMasters_induct (P := Replaced w d s) ⟨one, .refl w s, fun _ _ => rfl, fun _ h => nomatch h⟩
    (fun done m t fresh h => ?_)
  split
  · next current => exact h.idle fresh (fun e is => nomatch current.symm.trans is)
  next e current =>
  split
  · have state : t.windows[w].state = .live := by rw [h.steady.shifts.windows]; exact live
    have open' : stateRefusal t.windows[w].state e.request.kind = none := by rw [state]; rfl
    rw [open']
    obtain ⟨steady, elsewhere, placed⟩ := placeWrite_placed h.one current
      (by rw [h.steady.shifts.commits]; exact down) ((h.steady.shifts.definition w).trans definition)
    refine ⟨h.one.works (works_placeWrite ..), h.steady.trans steady, fun n other => ?_, fun n listed x is fenced => ?_⟩
    · have apart : n ≠ m := fun same => other (List.mem_append_right _ (List.mem_singleton.mpr same))
      exact (elsewhere n apart).1.trans (h.rest n (fun listed => other (List.mem_append_left _ listed)))
    · by_cases here : n = m
      · subst here
        obtain rfl := Option.some.inj (((h.rest n fresh).trans is).symm.trans current)
        exact placed
      · have before := (List.mem_append.mp listed).resolve_right (fun h => here (List.mem_singleton.mp h))
        exact (h.placed n before x is fenced).steady steady (elsewhere n here).1 (elsewhere n here).2
  · next unfenced =>
    exact h.idle fresh (fun x is => Option.some.inj (current.symm.trans is) ▸ Bool.eq_false_iff.mpr unfenced)

/-! ### Answers in a DRAINING window -/

theorem owns_freeRetiring (w : Fin 16) (i : Fin 4) (s : State) : Owns w s (freeRetiring w i s) := by
  unfold freeRetiring
  split
  · exact .refl w s
  split
  · exact (Owns.updSlot ..).trans (owns_allocate ..)
  · exact .refl w s

theorem rests_freeRetiring {w : Fin 16} {i : Fin 4} {s : State} (one : s.oneWaiting) : Rests s (freeRetiring w i s) := by
  unfold freeRetiring
  split
  · exact .refl s
  split
  · exact .trans (.of_same rfl) (rests_allocate (s := s.updSlot w i (fun x => { x with state := .free })) one)
  · exact .refl s

theorem fences_clearVisibility (w m : Fin 16) (id : Nat) (s : State) :
    Fences w s (s.updEntry m id Entry.clearVisibility) := by
  refine .of_map (fun n e => if n = m ∧ e.id = id then e.clearVisibility else e) (fun n => ?_) (fun n e => ?_)
    (fun n e => ?_)
  · rw [State.updEntry_responses]
    by_cases here : n = m
    · subst here
      rw [upd_same]
      exact List.map_congr_left (fun e _ => by simp only [true_and])
    · rw [upd_ne _ _ (Ne.symm here)]
      simp only [here, false_and, if_false, List.map_id']
  · split <;> rfl
  · split <;> exact ⟨rfl, rfl, rfl⟩

theorem owns_releaseVisibility (w : Fin 16) (s : State) : Owns w s (releaseVisibility w s) := by
  unfold releaseVisibility
  split
  · split
    · exact .refl w s
    · refine forMasters_keeps (fun t => Owns w s t) (fun m t h => ?_) (.refl w s)
      split
      · exact h
      split
      · exact h.trans ⟨rfl, (fences_clearVisibility ..).trans (.of_same rfl)⟩
      · exact h
  · exact .refl w s

theorem rests_releaseVisibility {w : Fin 16} {s : State} (one : s.oneWaiting) : Rests s (releaseVisibility w s) := by
  unfold releaseVisibility
  split
  · split
    · exact .refl s
    · refine (forMasters_keeps (fun t => t.oneWaiting ∧ Rests s t) (fun m t h => ?_) ⟨one, .refl s⟩).2
      split
      · exact h
      next x current =>
      split
      · obtain ⟨one', rests⟩ := h
        exact ⟨(one'.works (.updCurrent t m x current Entry.clearVisibility (fun _ => rfl))).works (works_stopTimer ..),
          rests.trans ((rests_updEntry one' current _).trans (.of_same rfl))⟩
      · exact h
  · exact .refl s

theorem owns_forgetPiece (w : Fin 16) (p : Piece) (s : State) : Owns w s (forgetPiece w p s) := by
  unfold forgetPiece
  split
  · exact .refl w s
  split
  · exact .refl w s
  · exact (Owns.updSlot ..).trans (owns_freeRetiring ..)
  · exact .refl w s
  · unfold lowerRead
    extract_lets t
    have lowered : Owns w s t := .updRoll ..
    split
    · split
      · exact lowered.trans (owns_releaseVisibility ..)
      · exact lowered
    · exact lowered

theorem rests_forgetPiece {w : Fin 16} {p : Piece} {s : State} (one : s.oneWaiting) : Rests s (forgetPiece w p s) := by
  unfold forgetPiece
  split
  · exact .refl s
  split
  · exact .refl s
  · exact .trans (.of_same rfl) (rests_freeRetiring (s := s.updSlot _ _ _) one)
  · exact .refl s
  · next q _ =>
    unfold lowerRead
    extract_lets t
    have lowered : Rests s t := .of_same rfl
    split
    · split
      · exact lowered.trans (rests_releaseVisibility (s := t) one)
      · exact lowered
    · exact lowered

theorem forgetPieces {w : Fin 16} {pieces : List Piece} {s : State} (one : s.oneWaiting) :
    let t := pieces.foldl (fun t p => forgetPiece w p t) s
    t.oneWaiting ∧ Owns w s t ∧ Rests s t := by
  induction pieces generalizing s with
  | nil => exact ⟨one, .refl w s, .refl s⟩
  | cons p pieces ih =>
    obtain ⟨one', owns, rests⟩ := ih (one.works (works_forgetPiece w p s))
    exact ⟨one', (owns_forgetPiece w p s).trans owns, (rests_forgetPiece one).trans rests⟩

/-- A waiting request is answered: what it becomes, and what is left of the others'. -/
structure Answers (w m : Fin 16) (e : Entry) (s t : State) : Prop where
  rests   : Rests s t
  others  : ∀ n, n ≠ m → ∀ x, s.current n = some x → x.fencedAt w = true →
    ∃ y, t.current n = some y ∧ y.id = x.id ∧ y.request = x.request ∧ y.fencedAt w = true
  done    : ∃ x ∈ t.responses[m], x.id = e.id ∧ x.stage = .complete (deniedResponse e.request)
  state   : t.windows[w].state = s.windows[w].state
  commits : s.commits[w].current = none → t.commits[w] = s.commits[w]

theorem answerWaiting_answers {w m : Fin 16} {e : Entry} {s : State} (one : s.oneWaiting) (current : s.current m = some e)
    (window : e.window = some w) (reason : Reason) : Answers w m e s (answerWaiting m reason s) := by
  let answer (x : Entry) : Entry := { x with stage := .complete (deniedResponse x.request), inDrain := false }
  have lists : (s.answered m e w reason).responses = (s.updEntry m e.id answer).responses := rfl
  have answered := one.works (.updCurrent s m e current answer (fun _ => rfl))
  have one' : (s.answered m e w reason).oneWaiting := answered
  obtain ⟨-, owns, rests⟩ := forgetPieces (w := w) (pieces := e.pieces) one'
  rw [answerWaiting_eq current window]
  refine ⟨.trans (t := s.answered m e w reason) (rests_updEntry one current answer) rests, fun n other x is fenced => ?_,
    ?_, ?_, fun idle => ?_⟩
  · refine owns.fences.fenced n x ?_ fenced
    exact ((congrArg (fun r : Vector (List Entry) 16 => r[n].find? Entry.isWaiting) lists).trans
      (State.current_updEntry_ne s other e.id answer)).trans is
  · refine ⟨answer e, rests m (answer e) ?_ rfl, rfl, rfl⟩
    show answer e ∈ (upd s.responses m _)[m]
    rw [upd_same]
    exact List.mem_map.mpr ⟨e, (State.current_eq_some current).1, if_pos rfl⟩
  · rw [owns.windows]
    have lowered : (s.answered m e w reason).windows[w] = { s.windows[w] with waiting := s.windows[w].waiting - 1 } :=
      Vector.getElem_set_self ..
    rw [lowered]
  · rw [owns.commits]
    show (if e.inDrain then _ else s.commits)[w] = s.commits[w]
    split
    · refine (Vector.getElem_set_self ..).trans ?_
      generalize s.commits[w] = c at idle
      obtain ⟨_, current', _⟩ := c
      obtain rfl : current' = none := idle
      rfl
    · rfl

/-- After the turns of the masters `done`, in a DRAINING window. -/
structure Refused (w : Fin 16) (s : State) (done : List (Fin 16)) (t : State) : Prop where
  one     : t.oneWaiting
  state   : t.windows[w].state = .draining
  commits : t.commits[w] = s.commits[w]
  rest    : ∀ n, n ∉ done → ∀ e, s.current n = some e → e.fencedAt w = true →
    ∃ y, t.current n = some y ∧ y.id = e.id ∧ y.request = e.request ∧ y.fencedAt w = true
  refused : ∀ n, n ∈ done → ∀ e, s.current n = some e → e.fencedAt w = true →
    ∃ x ∈ t.responses[n], x.id = e.id ∧ x.stage = .complete (deniedResponse e.request)

theorem Refused.idle {w m : Fin 16} {s : State} {done : List (Fin 16)} {t : State} (h : Refused w s done t)
    (fresh : m ∉ done) (unfenced : ∀ e, t.current m = some e → e.fencedAt w = false) :
    Refused w s (done ++ [m]) t := by
  refine ⟨h.one, h.state, h.commits, fun n other => h.rest n (fun listed => other (List.mem_append_left _ listed)),
    fun n listed e current fenced => ?_⟩
  rcases List.mem_append.mp listed with listed | here
  · exact h.refused n listed e current fenced
  · obtain rfl := List.mem_singleton.mp here
    obtain ⟨y, current', -, -, fenced'⟩ := h.rest n fresh e current fenced
    rw [unfenced y current'] at fenced'
    cases fenced'

theorem reclassifyFenced_draining {w : Fin 16} {s : State} (one : s.oneWaiting)
    (draining : s.windows[w].state = .draining) (idle : s.commits[w].current = none) :
    Refused w s masters (reclassifyFenced w s) := by
  unfold reclassifyFenced
  refine forMasters_induct (P := Refused w s) ⟨one, draining, rfl,
    fun n _ e current fenced => ⟨e, current, rfl, rfl, fenced⟩, fun _ h => nomatch h⟩ (fun done m t fresh h => ?_)
  split
  · next current => exact h.idle fresh (fun e is => nomatch current.symm.trans is)
  next e current =>
  split
  · next fenced =>
    rw [h.state]
    have answers := answerWaiting_answers h.one current (Entry.window_of_fencedAt fenced) .closing
    refine ⟨h.one.works (works_answerWaiting ..), answers.state.trans h.state,
      (answers.commits (by rw [h.commits]; exact idle)).trans h.commits, fun n other x is fenced' => ?_,
      fun n listed x is fenced' => ?_⟩
    · have apart : n ≠ m := fun same => other (List.mem_append_right _ (List.mem_singleton.mpr same))
      obtain ⟨y, current', id, request, still⟩ :=
        h.rest n (fun listed => other (List.mem_append_left _ listed)) x is fenced'
      obtain ⟨z, current'', id', request', still'⟩ := answers.others n apart y current' still
      exact ⟨z, current'', id'.trans id, request'.trans request, still'⟩
    · by_cases here : n = m
      · subst here
        obtain ⟨y, current', id, request, -⟩ := h.rest n fresh x is fenced'
        obtain rfl := Option.some.inj (current.symm.trans current')
        obtain ⟨z, listed', id', stage⟩ := answers.done
        exact ⟨z, listed', id'.trans id, by rw [stage, request]⟩
      · have before := (List.mem_append.mp listed).resolve_right (fun h => here (List.mem_singleton.mp h))
        obtain ⟨z, listed', id, stage⟩ := h.refused n before x is fenced'
        exact ⟨z, answers.rests n z listed' (by rw [Entry.isWaiting, stage]), id, stage⟩
  · next unfenced =>
    exact h.idle fresh (fun x is => Option.some.inj (current.symm.trans is) ▸ Bool.eq_false_iff.mpr unfenced)

end Sys2Proof.Machine
end


section
/-! SUPPORT. The outcomes of a take, assembled (R131). -/

namespace Sys2Proof.Machine

theorem ownerTake_noSlot {w : Fin 16} {c : Commit} {u : SlotUnit} {s : State} (slots : s.slots[w] = some u)
    (unfilled : u.filling = none) : ownerTake w c s = discardTake w .noSlot 0 c s := by
  have empty : s.slots[w].bind SlotUnit.filling = none := by rw [slots]; exact unfilled
  unfold ownerTake
  rw [slots]
  dsimp only
  split
  · rw [takePublish, empty]
  · rw [takeAbandon, empty]

theorem ownerTake_rolling {w : Fin 16} {c : Commit} {s : State} (slots : s.slots[w] = none) :
    ownerTake w c s = takeAdvance w c s := by rw [ownerTake, slots]

theorem ViewState.advance_eq (x : ViewState) : x.advance = match x with
    | .pinnedOrigin o lag => .pinnedOrigin o (if lag < 255 then lag + 1 else 255)
    | x => x := by
  cases x with
  | pinnedOrigin o lag =>
    refine congrArg (ViewState.pinnedOrigin o) (?_ : min 255 (lag + 1) = _)
    split <;> omega
  | _ => rfl

/-- The take that ends with the fence down and no commit queued, its fenced writes not yet classified afresh. -/
def afterOwner (w : Fin 16) (c : Commit) (s : State) : State := (takenState w c s).fenceDown w []

theorem commitTake_single {w : Fin 16} {c : Commit} {s : State}
    (commits : s.commits[w] = { queue := [], current := some ⟨c, 0⟩, fence := true }) :
    exec (.commitTake w) s = .next (beginNext w (reclassifyFenced w (afterOwner w c s))) := by
  have queue : s.commits[w].queue = [] := by rw [commits]
  rw [commitTake_eq (c := c) (by rw [commits]), takeOnce_eq, queue, afterOwner, List.length_nil,
    Function.iterate_zero_apply]

theorem beginNext_nil {w : Fin 16} {s : State} (empty : s.commits[w].queue = []) : beginNext w s = s := by
  rw [beginNext, empty]

theorem afterOwner_slots {w : Fin 16} {c : Commit} {s : State} (open' : s.windows[w].state ≠ .draining)
    (slots : s.slots[w] = none) : (afterOwner w c s).slots[w] = none := by
  have windows := ((owns_ownerTake w c s).trans (owns_releaseTrigger w c.trigger (ownerTake w c s).2 _)).windows
  have owned : (ownerTake w c s).1.slots = s.slots := by
    rw [ownerTake_rolling slots]
    cases definition : s.definition w with
    | none => rw [takeAdvance, definition]
    | some d =>
      cases rolls : s.rolls[w] with
      | none => rw [takeAdvance, definition, rolls]
      | some u => rw [takeAdvance_eq definition rolls]
  have same : (afterOwner w c s).slots = s.slots := by
    show (takenState w c s).slots = s.slots
    rw [takenState, dropAfterTake_idle (by rw [windows]; exact open'), (releaseTrigger_slots ..).1, owned]
  rw [same, slots]

theorem shifts_placeWrite (m w : Fin 16) (s : State) : Shifts s (placeWrite m w s) := by
  have started (t : State) : Shifts t (startTimer m w t) := by
    unfold startTimer
    split <;> rfl
  have entered (id : Nat) (f : Entry → Entry) : Shifts s (s.updEntry m id f) := rfl
  unfold placeWrite
  split
  · rfl
  split
  · exact entered ..
  split
  · unfold mapWaitingToRing
    split
    · extract_lets pieces t
      have mapped : Shifts s t := entered ..
      split
      · exact mapped.trans (started t)
      · exact mapped
    · rfl
  split
  · exact shifts_mapWaitingToSlot ..
  · split
    · exact (entered ..).trans (started _)
    · exact entered ..

/-- The fence stays down as the fenced writes are classified afresh. -/
theorem reclassifyFenced_commits {w : Fin 16} {s : State} (one : s.oneWaiting) (idle : s.commits[w].current = none) :
    (reclassifyFenced w s).commits[w] = s.commits[w] := by
  unfold reclassifyFenced
  refine (forMasters_keeps (fun t => t.oneWaiting ∧ t.commits[w] = s.commits[w]) (fun m t h => ?_) ⟨one, rfl⟩).2
  obtain ⟨one', commits⟩ := h
  split
  · exact ⟨one', commits⟩
  next e current =>
  split
  · next fenced =>
    split
    · next reason _ =>
      have answers := answerWaiting_answers one' current (Entry.window_of_fencedAt fenced) reason
      exact ⟨one'.works (works_answerWaiting ..), (answers.commits (by rw [commits]; exact idle)).trans commits⟩
    · exact ⟨one'.works (works_placeWrite ..),
        (congrArg (fun x : Vector CommitState 16 => x[w]) (shifts_placeWrite m w t).commits).trans commits⟩
  · exact ⟨one', commits⟩

end Sys2Proof.Machine

namespace Sys2Proof
open Machine

/-- Settles O44: what the owner does (`commitTake_ended`), and the fenced writes by `reclassifyFenced_live` and
`reclassifyFenced_draining`. -/
theorem commitTakeOutcomes : Obligations.CommitTakeOutcomes := by
  refine ⟨?_, fun w c d s one commits definition => ?_⟩
  · intro w c d s current unfenced open' definition ended discarded
    refine ⟨fun u slots unfilled => ?_,
      fun u i k slots filling work action => ⟨fun unwritten => ?_, fun written full short => ?_,
        fun written covered uncopied unsealed state => ?_⟩,
      fun u i k x n z slots filling unsealed work slot flying waiting shown action empty live target free lowest _ _ =>
        ?_, fun u i k x slots filling _ slot flying action empty => ?_, fun u slots rolls => ?_⟩
    · exact commitTake_ended current unfenced open' (ownerTake_noSlot slots unfilled)
    · refine commitTake_ended (t := post (.commitDiscarded w .empty c.master 0) s) (taken := false) current unfenced open' ?_
      rw [ownerTake_publish slots action, takePublish_filling slots filling definition work, if_pos unwritten]
      rfl
    · refine commitTake_ended (t := post (.commitDiscarded w .incomplete c.master (missingBlocks d k)) s) (taken := false)
        current unfenced open' ?_
      rw [ownerTake_publish slots action, takePublish_filling slots filling definition work, if_neg written,
        if_pos ⟨full, short⟩]
      rfl
    · refine commitTake_ended current unfenced open' ?_
      rw [ownerTake_publish slots action, takePublish_filling slots filling definition work, if_neg written,
        if_neg (fun h => absurd (covered h.1) (Nat.not_le.mpr h.2)), if_pos ((Work.has_uncopied k).mpr uncopied),
        sealSlot_eq state]
    · obtain ⟨⟨u', z', k', slots', front, counter, filled, slot', state, fresh, freed⟩, job⟩ :=
        takeAbandon_opens live definition slots filling unsealed work slot ⟨flying, waiting⟩ shown target free lowest
      obtain ⟨r, runs, slots_r, copier, notice, commits⟩ := commitTake_last current unfenced open' empty
        (ownerTake_abandon slots filling action)
      exact ⟨r, u', z', k', runs, by rw [slots_r]; exact slots', front, counter, filled, slot', state, fresh.written,
        fresh.length, fresh.source, freed, fun running backfill => by rw [copier]; exact job running backfill,
        notice.trans (takeAbandon_notice w i s), commits⟩
    · obtain ⟨u', slots', h⟩ := takeAbandon_retires slots filling slot flying
      obtain ⟨r, runs, slots_r, -, notice, commits⟩ := commitTake_last current unfenced open' empty
        (ownerTake_abandon slots filling action)
      obtain ⟨x', slot', retiring⟩ := h.slot
      exact ⟨r, u', x', runs, by rw [slots_r]; exact slots', h.front, h.counter, h.unfilled, slot', retiring,
        notice.trans (takeAbandon_notice w i s), commits⟩
    · refine commitTake_ended current unfenced open' ?_
      rw [ownerTake_rolling slots, takeAdvance_eq definition rolls, funext ViewState.advance_eq]
      rfl
  · have owns := owns_takenState w c s
    have taken := one.works ((works_ownerTake w c s).trans
      ((works_releaseTrigger c.trigger (ownerTake w c s).2 _).trans (works_dropAfterTake w _)))
    have one₁ : (afterOwner w c s).oneWaiting := taken
    have windows : (afterOwner w c s).windows = s.windows := owns.windows
    have commits₁ : (afterOwner w c s).commits[w] = { queue := [], current := none, fence := false } :=
      State.fenceDown_commits ..
    have ended := (reclassifyFenced_commits one₁ (by rw [commits₁])).trans commits₁
    refine ⟨reclassifyFenced w (afterOwner w c s), ?_, ended, fun m e current fenced write => ?_⟩
    · rw [commitTake_single commits, beginNext_nil (by rw [ended])]
    obtain ⟨x, current', id, request, fenced'⟩ := owns.fences.fenced m e current fenced
    refine ⟨fun draining => ?_, fun live => ?_⟩
    · obtain ⟨y, listed, same, stage⟩ := (reclassifyFenced_draining one₁ (by rw [windows]; exact draining)
        (by rw [commits₁])).refused m (mem_masters m) x current' fenced'
      refine ⟨y, listed, same.trans id, ?_⟩
      rw [stage, request, deniedResponse, write]
    · have replaced := reclassifyFenced_live (d := d) one₁ (by rw [windows]; exact live) (by rw [commits₁])
        ((owns.definition w).trans definition)
      have placed := replaced.placed m (mem_masters m) x current' fenced'
      refine ⟨fun u slots rolls => ?_, fun u slots => ⟨fun i k filling work => ?_, fun unfilled => ?_⟩⟩
      · have empty : (reclassifyFenced w (afterOwner w c s)).slots[w] = none := by
          have cell := replaced.steady.slots
          rw [afterOwner_slots (by rw [live]; nofun) slots] at cell
          cases left : (reclassifyFenced w (afterOwner w c s)).slots[w] with
          | none => rfl
          | some v => rw [left] at cell; cases cell
        obtain ⟨y, there, same, stage, pieces⟩ := placed.lined u empty rolls
        refine ⟨y, there, same.trans id, stage, ?_⟩
        rw [pieces, linePieces, List.map_map, request]
        rfl
      · obtain ⟨y, k', there, same, stage, pieces⟩ := placed.slotted u i slots filling (by rw [work]; rfl)
        refine ⟨y, there, same.trans id, stage, ?_⟩
        rw [pieces, List.map_map, request]
        rfl
      · obtain ⟨y, there, same, stage, timed⟩ := placed.waits u slots unfilled
        refine ⟨y, there, same.trans id, stage, fun unsealed => ?_⟩
        rw [timed unsealed, replaced.steady.shifts.timebase]
        exact congrArg (fun start => some (Timer.mk start d.limit)) owns.timebase

end Sys2Proof
end


section
/-! SUPPORT. The two reclaims (R67, R100): the views they tear (R118), and what becomes of the slot and of the target. -/

namespace Sys2Proof.Machine

/-! ### Timers that only stop -/

/-- From `s` to `t` no stall timer has started. -/
structure Stops (s t : State) : Prop where
  timer : ∀ n : Fin 16, t.stallTimers[n] = s.stallTimers[n] ∨ t.stallTimers[n] = none

namespace Stops

theorem of_same {s t : State} (timers : t.stallTimers = s.stallTimers) : Stops s t :=
  ⟨fun n => .inl (congrArg (fun x : Vector (Option Timer) 16 => x[n]) timers)⟩

theorem refl (s : State) : Stops s s := of_same rfl

theorem trans {s t u : State} (a : Stops s t) (b : Stops t u) : Stops s u := by
  refine ⟨fun n => ?_⟩
  rcases b.timer n with same | none
  · exact (a.timer n).imp same.trans same.trans
  · exact .inr none

theorem stopped {s t : State} (h : Stops s t) {n : Fin 16} (none : s.stallTimers[n] = none) : t.stallTimers[n] = .none :=
  (h.timer n).elim (fun same => same.trans none) id

theorem stop {s t : State} {m : Fin 16} (timers : t.stallTimers = s.stallTimers.set m none) : Stops s t := by
  refine ⟨fun n => ?_⟩
  rw [timers]
  by_cases here : m = n
  · subst here
    exact .inr (Vector.getElem_set_self ..)
  · exact .inl (Vector.getElem_set_ne _ _ (fun h => here (Fin.ext h)))

end Stops

theorem stops_mapWaitingToSlot (m w : Fin 16) (i : Fin 4) (s : State) : Stops s (mapWaitingToSlot m w i s) := by
  cases current : s.current m with
  | none => rw [mapWaitingToSlot_idle (.inl current)]; exact .refl s
  | some e =>
    cases definition : s.definition w with
    | none => rw [mapWaitingToSlot_idle (.inr (.inl definition))]; exact .refl s
    | some d =>
      cases work : s.work w i with
      | none => rw [mapWaitingToSlot_idle (.inr (.inr work))]; exact .refl s
      | some k => exact .stop (mapWaitingToSlot_cells current definition work).2.1

theorem stops_mapSlotWaits (w : Fin 16) (i : Fin 4) (s : State) : Stops s (mapSlotWaits w i s) := by
  unfold mapSlotWaits
  refine forMasters_keeps (fun t => Stops s t) (fun m t h => ?_) (.refl s)
  split
  · exact h
  split
  · exact h.trans (stops_mapWaitingToSlot ..)
  · exact h

theorem stops_allocate (w : Fin 16) (s : State) : Stops s (allocate w s) := by
  unfold allocate
  split
  · exact .refl s
  split
  · next d u _ slots =>
    split
    · exact .refl s
    split
    · exact .refl s
    · next i _ =>
      obtain ⟨t, is, chooses, -⟩ := allocateSlot_chooses w d u i slots
      rw [is]
      exact .trans (.of_same (chooses.stallTimers.trans rfl)) (stops_mapSlotWaits ..)
  · exact .refl s

theorem stops_retire (w : Fin 16) (i : Fin 4) (s : State) : Stops s (retire w i s) := by
  unfold retire
  split
  · split
    · split
      · exact .trans (t := s.updSlot w i Slot.leave) (.of_same rfl) (stops_allocate ..)
      · exact .of_same rfl
    · exact .refl s
  · exact .refl s

theorem stops_releaseVisibility (w : Fin 16) (s : State) : Stops s (releaseVisibility w s) := by
  unfold releaseVisibility
  split
  · split
    · exact .refl s
    · refine forMasters_keeps (fun t => Stops s t) (fun m t h => ?_) (.refl s)
      split
      · exact h
      split
      · exact h.trans (.stop rfl)
      · exact h
  · exact .refl s

theorem stops_givePinUp (w : Fin 16) (held : ViewState) (s : State) : Stops s (givePinUp w held s) := by
  unfold givePinUp
  split
  · next p _ =>
    exact .trans (t := s.updSlot w p (fun x => { x with pins := x.pins - 1 })) (.of_same rfl) (stops_retire ..)
  · split
    · exact .trans (t := s.updRoll w (fun u => { u with seeing := u.seeing - 1 })) (.of_same rfl)
        (stops_releaseVisibility ..)
    · exact .refl s
  · exact .refl s

/-! ### Tear requests (R118) -/

/-- A view of window `w` that a tear request names, by what it holds, is torn. -/
def tears (w : Fin 16) (named : Option Definition → View → Bool) (t : State) (c : Fin 8) : State :=
  if (t.view w c).any (named (t.definition w)) then tearView w c t else t

theorem tearSlot_eq (w : Fin 16) (i : Fin 4) (s : State) :
    tearSlot w i s = consumerNumbers.foldl (tears w (fun _ v => v.state.isOnSlot i)) s := rfl

theorem tearSeeing_eq (w : Fin 16) (s : State) :
    tearSeeing w s = consumerNumbers.foldl (tears w (fun d v => v.state.isSeeing d)) s := rfl

theorem tearView_eq {w : Fin 16} {c : Fin 8} {v : View} {s : State} (view : s.view w c = some v) :
    tearView w c s = post (.viewTorn w c)
      (givePinUp w v.state (s.updView w c (fun v => { v with state := .torn, mark := none }))) := by
  unfold tearView
  rw [view]

theorem tearView_frame {w : Fin 16} {c : Fin 8} {v : View} {s : State} (view : s.view w c = some v) :
    (tearView w c s).windows = s.windows ∧ Stops s (tearView w c s) ∧
      (tearView w c s).view w c = some { v with state := .torn, mark := none } ∧
      ∀ w' c', w' ≠ w ∨ c' ≠ c → (tearView w c s).view w' c' = s.view w' c' := by
  rw [tearView_eq view]
  have given := shifts_givePinUp w v.state (s.updView w c (fun v => { v with state := .torn, mark := none }))
  have stops := stops_givePinUp w v.state (s.updView w c (fun v => { v with state := .torn, mark := none }))
  generalize givePinUp w v.state (s.updView w c (fun v => { v with state := .torn, mark := none })) = t at given stops
  refine ⟨given.windows, .trans (t := s.updView w c (fun v => { v with state := .torn, mark := none })) (.of_same rfl)
    (stops.trans (.of_same rfl)), ?_, fun w' c' other => ?_⟩
  · exact (given.view w c).trans ((State.updView_get ..).trans (by rw [view]; rfl))
  · exact (given.view w' c').trans (State.updView_other s _ other)

theorem tears_frame (w : Fin 16) (named : Option Definition → View → Bool) (s : State) (c : Fin 8) :
    (tears w named s c).windows = s.windows ∧ Stops s (tears w named s c) ∧
      (tears w named s c).view w c = (s.view w c).map (fun v =>
        if named (s.definition w) v then { v with state := .torn, mark := none } else v) ∧
      ∀ w' c', w' ≠ w ∨ c' ≠ c → (tears w named s c).view w' c' = s.view w' c' := by
  unfold tears
  cases view : s.view w c with
  | none => exact ⟨rfl, .refl s, view, fun _ _ _ => rfl⟩
  | some v =>
    dsimp only [Option.any_some, Option.map_some]
    split
    · exact tearView_frame view
    · exact ⟨rfl, .refl s, view, fun _ _ _ => rfl⟩

theorem foldl_tears_frame {w : Fin 16} {named : Option Definition → View → Bool} (l : List (Fin 8)) (nodup : l.Nodup)
    (s : State) : (l.foldl (tears w named) s).windows = s.windows ∧ Stops s (l.foldl (tears w named) s) ∧
      ∀ w' c, (l.foldl (tears w named) s).view w' c = if w' = w ∧ c ∈ l then (s.view w' c).map (fun v =>
        if named (s.definition w) v then { v with state := .torn, mark := none } else v) else s.view w' c := by
  induction l generalizing s with
  | nil => exact ⟨rfl, .refl s, fun w' c => by simp⟩
  | cons x l ih =>
    obtain ⟨fresh, nodup⟩ := List.nodup_cons.mp nodup
    obtain ⟨windows, stops, here, others⟩ := tears_frame w named s x
    obtain ⟨windows', stops', views⟩ := ih nodup (tears w named s x)
    have definition : (tears w named s x).definition w = s.definition w := by
      rw [State.definition, windows]
      rfl
    refine ⟨windows'.trans windows, stops.trans stops', fun w' c => ?_⟩
    rw [List.foldl_cons, views, definition]
    by_cases same : w' = w ∧ c = x
    · obtain ⟨rfl, rfl⟩ := same
      rw [if_neg (fun h => fresh h.2), here, if_pos ⟨rfl, List.mem_cons_self⟩]
    · have other : w' ≠ w ∨ c ≠ x := by
        by_cases window : w' = w
        · exact .inr (fun h => same ⟨window, h⟩)
        · exact .inl window
      rw [others w' c other]
      have listed : (w' = w ∧ c ∈ x :: l) ↔ (w' = w ∧ c ∈ l) := by
        refine and_congr_right (fun window => ?_)
        rw [List.mem_cons]
        exact or_iff_right (fun h => same ⟨window, h⟩)
      simp only [listed]

end Sys2Proof.Machine
end


section
/-! SUPPORT. The reclaim of the oldest slot (R67), its views torn first. -/

namespace Sys2Proof.Machine

/-! ### The oldest slot -/

/-- The age of a slot that may be reclaimed. -/
def SlotUnit.age (u : SlotUnit) (i : Fin 4) : Option Nat := if i = u.front then none else u.slots[i].bind (slotAge u.counter)

theorem oldestOf_spec (u : SlotUnit) (l : List (Fin 4)) :
    (oldestOf u l = none → ∀ i ∈ l, u.age i = none) ∧
      ∀ j a, oldestOf u l = some (j, a) → j ∈ l ∧ u.age j = some a ∧ ∀ i ∈ l, ∀ b, u.age i = some b → b ≤ a := by
  induction l with
  | nil => exact ⟨fun _ _ h => (nomatch h), fun _ _ h => (nomatch h)⟩
  | cons k l ih =>
    obtain ⟨none_of, some_of⟩ := ih
    unfold oldestOf
    cases age : u.age k with
    | none =>
      rw [show (if k = u.front then none else u.slots[k].bind (slotAge u.counter)) = none from age]
      refine ⟨fun h i listed => ?_, fun j a h => ?_⟩
      · rcases List.mem_cons.mp listed with rfl | listed
        · exact age
        · exact none_of h i listed
      · obtain ⟨listed, is, most⟩ := some_of j a h
        refine ⟨List.mem_cons_of_mem k listed, is, fun i listed' b is' => ?_⟩
        rcases List.mem_cons.mp listed' with rfl | listed'
        · cases age.symm.trans is'
        · exact most i listed' b is'
    | some b =>
      rw [show (if k = u.front then none else u.slots[k].bind (slotAge u.counter)) = some b from age]
      dsimp only
      cases rest : oldestOf u l with
      | none =>
        refine ⟨fun h => (nomatch h), fun j a h => ?_⟩
        obtain ⟨rfl, rfl⟩ := Prod.mk.inj (Option.some.inj h)
        refine ⟨List.mem_cons_self, age, fun i listed c is => ?_⟩
        rcases List.mem_cons.mp listed with rfl | listed
        · exact (Option.some.inj (age.symm.trans is)).symm.le
        · cases (none_of rest i listed).symm.trans is
      | some x =>
        obtain ⟨j', a'⟩ := x
        obtain ⟨listed', is', most⟩ := some_of j' a' rest
        dsimp only
        split
        · next more =>
          refine ⟨fun h => (nomatch h), fun j a h => ?_⟩
          obtain ⟨rfl, rfl⟩ := Prod.mk.inj (Option.some.inj h)
          refine ⟨List.mem_cons_self, age, fun i listed c is => ?_⟩
          rcases List.mem_cons.mp listed with rfl | listed
          · exact (Option.some.inj (age.symm.trans is)).symm.le
          · exact (most i listed c is).trans more
        · next less =>
          refine ⟨fun h => (nomatch h), fun j a h => ?_⟩
          obtain ⟨rfl, rfl⟩ := Prod.mk.inj (Option.some.inj h)
          refine ⟨List.mem_cons_of_mem k listed', is', fun i listed c is => ?_⟩
          rcases List.mem_cons.mp listed with rfl | listed
          · have := Option.some.inj (age.symm.trans is)
            omega
          · exact most i listed c is

theorem SlotUnit.age_published {u : SlotUnit} {i : Fin 4} {x : Slot} {g : BitVec 32} (behind : i ≠ u.front)
    (slot : u.slots[i] = some x) (published : x.state = .published g) : u.age i = some (u.counter - g).toNat := by
  rw [SlotUnit.age, if_neg behind, slot, Option.bind_some, slotAge, published]

theorem SlotUnit.age_some {u : SlotUnit} {i : Fin 4} {a : Nat} (h : u.age i = some a) : ∃ x g, i ≠ u.front ∧
    u.slots[i] = some x ∧ x.state = .published g ∧ a = (u.counter - g).toNat := by
  unfold SlotUnit.age at h
  split at h
  · cases h
  · next behind =>
    obtain ⟨x, slot, age⟩ := Option.bind_eq_some_iff.mp h
    obtain ⟨state, _, _, _, _⟩ := x
    cases state with
    | published g => exact ⟨_, g, behind, slot, rfl, (Option.some.inj age).symm⟩
    | _ => cases age

theorem SlotUnit.oldest_none {u : SlotUnit}
    (none : ∀ (i : Fin 4) y, i ≠ u.front → u.slots[i] = some y → y.isPublished = false) : u.oldest = .none := by
  cases oldest : oldestOf u slotNumbers with
  | none => rw [SlotUnit.oldest, oldest]; rfl
  | some x =>
    obtain ⟨j, a⟩ := x
    obtain ⟨-, age, -⟩ := (oldestOf_spec u slotNumbers).2 j a oldest
    obtain ⟨y, g, behind, slot, published, -⟩ := SlotUnit.age_some age
    have := none j y behind slot
    rw [Slot.isPublished, published] at this
    cases this

theorem SlotUnit.oldest_some {u : SlotUnit} {i : Fin 4} {y : Slot} {g : BitVec 32} (behind : i ≠ u.front)
    (slot : u.slots[i] = some y) (published : y.state = .published g)
    (most : ∀ (j : Fin 4) z g', j ≠ u.front → j ≠ i → u.slots[j] = some z → z.state = .published g' →
      (u.counter - g').toNat < (u.counter - g).toNat) : u.oldest = some i := by
  have age := SlotUnit.age_published behind slot published
  cases oldest : oldestOf u slotNumbers with
  | none => cases ((oldestOf_spec u slotNumbers).1 oldest i (mem_slotNumbers i)).symm.trans age
  | some x =>
    obtain ⟨j, a⟩ := x
    obtain ⟨-, age', above⟩ := (oldestOf_spec u slotNumbers).2 j a oldest
    obtain ⟨z, g', behind', slot', published', rfl⟩ := SlotUnit.age_some age'
    have here : j = i := by
      by_contra other
      have := most j z g' behind' other slot' published'
      have := above i (mem_slotNumbers i) _ age
      omega
    rw [SlotUnit.oldest, oldest, here]
    rfl

/-! ### The slot that leaves PUBLISHED -/

/-- What a reclaim makes of slot `i`, whose record was `y`, in a window that is LIVE or not and whose slots were `u`. -/
structure SlotUnit.Reclaims (i : Fin 4) (live : Prop) (y : Slot) (u u' : SlotUnit) : Prop where
  front   : u'.front = u.front
  counter : u'.counter = u.counter
  slot    : ∃ y', u'.slots[i] = some y' ∧ y'.isPublished = false ∧
    (y.inFlight ≠ 0 ∨ y.waiting ≠ 0 → y'.state = .retiring) ∧ (y.inFlight = 0 → y.waiting = 0 →
      (¬ live ∨ u.filling ≠ none ∨ u.sealed ≠ none → y'.state = .free) ∧ (live → u.filling = none → u.sealed = none →
        (∀ (j : Fin 4) z, u.slots[j] = some z → z.state ≠ .free) → u'.filling = some i))

/-- A slot out of its pins leaves PUBLISHED. -/
theorem retired_reclaims {w : Fin 16} {i : Fin 4} {d : Definition} {u : SlotUnit} {y : Slot} {f : Slot → Slot} {s : State}
    (definition : s.definition w = some d) (slot : u.slots[i] = some y)
    (left : (f y).state = if y.inFlight = 0 ∧ y.waiting = 0 then .free else .retiring)
    (slots : s.slots[w] = some (u.onSlot i f)) :
    ∃ u', (if y.inFlight = 0 ∧ y.waiting = 0 then allocate w s else s).slots[w] = some u' ∧
      SlotUnit.Reclaims i (s.windows[w].state = .live) y u u' := by
  have slot' : (u.onSlot i f).slots[i] = some (f y) := by rw [SlotUnit.onSlot_get, if_pos rfl, slot]; rfl
  by_cases unused : y.inFlight = 0 ∧ y.waiting = 0
  · rw [if_pos unused] at left ⊢
    have freed (idle : s.windows[w].state ≠ .live ∨ u.filling ≠ none ∨ u.sealed ≠ none) : allocate w s = s :=
      allocate_idle (idle.imp_right (fun h v is => Option.some.inj (slots.symm.trans is) ▸ h))
    obtain ⟨u', slots', kept⟩ := allocate_kept slots
    refine ⟨u', slots', kept.front, kept.counter, ?_⟩
    have published : ∃ y', u'.slots[i] = some y' ∧ y'.isPublished = false := by
      rcases allocate_cases slots with idle | ⟨d', i', x, n, u'', -, -, -, -, is, free, slots'', opens⟩
      · rw [idle] at slots'
        obtain rfl := Option.some.inj (slots.symm.trans slots')
        exact ⟨f y, slot', by rw [Slot.isPublished, left]⟩
      · obtain rfl := Option.some.inj (slots'.symm.trans slots'')
        by_cases same : i = i'
        · subst same
          obtain ⟨x', k', slot'', filling, -⟩ := opens.slot
          exact ⟨x', slot'', by rw [Slot.isPublished, filling]⟩
        · obtain ⟨y', hold, slot'', copies⟩ := opens.others i same _ slot'
          refine ⟨y', slot'', ?_⟩
          rw [copies.same (Slot.work_of_free left), Slot.isPublished]
          exact (congrArg (fun st : SlotState => match st with
            | .published _ => true
            | _ => false) left)
    obtain ⟨y', slot'', unpublished⟩ := published
    refine ⟨y', slot'', unpublished, fun used => absurd unused (not_and_or.mpr used), fun _ _ => ⟨fun idle => ?_,
      fun live unfilled unsealed full => ?_⟩⟩
    · rw [freed idle] at slots'
      obtain rfl := Option.some.inj (slots.symm.trans slots')
      obtain rfl := Option.some.inj (slot'.symm.trans slot'')
      exact left
    · obtain ⟨⟨n, u'', slots'', opens⟩, -⟩ := allocate_opens live definition slots unfilled unsealed slot' left
        (fun j below z is => by
          rw [SlotUnit.onSlot_get, if_neg (ne_of_lt below)] at is
          exact full j z is)
      exact Option.some.inj (slots'.symm.trans slots'') ▸ opens.filling
  · rw [if_neg unused] at left ⊢
    exact ⟨_, slots, rfl, rfl, f y, slot', by rw [Slot.isPublished, left], fun _ => left,
      fun a b => absurd ⟨a, b⟩ unused⟩

/-! ### The views on the slot, torn one by one -/

theorem View.isOnSlot_eq (v : View) (i : Fin 4) : v.state.isOnSlot i = v.pinsSlot i := by
  obtain ⟨state, _, _, _⟩ := v
  cases state <;> rfl

theorem tears_quiet {w : Fin 16} {i : Fin 4} {l : List (Fin 8)} {s : State}
    (quiet : ∀ c ∈ l, (s.view w c).any (fun v => v.pinsSlot i) = false) :
    l.foldl (tears w (fun _ v => v.state.isOnSlot i)) s = s := by
  refine foldl_fixed (fun c listed => if_neg ?_)
  simp only [View.isOnSlot_eq, quiet c listed, Bool.false_eq_true, not_false_iff]

/-- Tearing the views that pin a slot and retiring it, the views in any order. -/
theorem tears_reclaims {w : Fin 16} {i : Fin 4} {d : Definition} (l : List (Fin 8)) (nodup : l.Nodup) {u : SlotUnit}
    {y : Slot} {s : State} (definition : s.definition w = some d) (slots : s.slots[w] = some u)
    (slot : u.slots[i] = some y) (behind : i ≠ u.front) (published : y.isPublished = true) (unheld : y.hold = false)
    (counted : y.pins = l.countP (fun c => (s.view w c).any (fun v => v.pinsSlot i))) :
    ∃ u', (retire w i (l.foldl (tears w (fun _ v => v.state.isOnSlot i)) s)).slots[w] = some u' ∧
      SlotUnit.Reclaims i (s.windows[w].state = .live) y u u' := by
  induction l generalizing u y s with
  | nil =>
    rw [List.foldl_nil, retire_goes slots slot ⟨published, behind.symm, counted, unheld⟩]
    exact retired_reclaims (s := s.withSlots w (u.onSlot i Slot.leave)) definition slot rfl (State.withSlots_slots ..)
  | cons c l ih =>
    obtain ⟨fresh, nodup⟩ := List.nodup_cons.mp nodup
    rw [List.foldl_cons]
    by_cases pinned : (s.view w c).any (fun v => v.pinsSlot i) = true
    · obtain ⟨v, view, pins⟩ := (Option.any_eq_true _ _).mp pinned
      obtain ⟨g, held⟩ := View.pinsSlot_iff.mp pins
      have torn : tears w (fun _ v => v.state.isOnSlot i) s c = post (.viewTorn w c) (unpinSlot w i
          (s.updView w c (fun v => { v with state := .torn, mark := none }))) := by
        have named : (s.view w c).any (fun v => v.state.isOnSlot i) = true := by
          simpa only [View.isOnSlot_eq] using pinned
        rw [tears, if_pos named, tearView_eq view, held]
        rfl
      have more : y.pins = l.countP (fun c => (s.view w c).any (fun v => v.pinsSlot i)) + 1 := by
        rw [counted]
        exact List.countP_cons_of_pos pinned
      obtain ⟨windows, -, -, others⟩ := tears_frame w (fun _ v => v.state.isOnSlot i) s c
      have definition' : (tears w (fun _ v => v.state.isOnSlot i) s c).definition w = some d := by
        rw [State.definition, windows]
        exact definition
      have views (c' : Fin 8) (listed : c' ∈ l) : (tears w (fun _ v => v.state.isOnSlot i) s c).view w c' = s.view w c' :=
        others w c' (.inr (fun same => fresh (same ▸ listed)))
      by_cases last : l.countP (fun c => (s.view w c).any (fun v => v.pinsSlot i)) = 0
      · have retires : y.retires := ⟨published, by omega, unheld⟩
        have left : y.released.state = if y.inFlight = 0 ∧ y.waiting = 0 then .free else .retiring := if_pos retires
        obtain ⟨u', slots', h⟩ := retired_reclaims (f := Slot.released)
          (s := (s.updView w c (fun v => { v with state := .torn, mark := none })).withSlots w (u.onSlot i Slot.released))
          definition slot left (State.withSlots_slots ..)
        rw [← unpinSlot_retires (s := s.updView w c (fun v => { v with state := .torn, mark := none })) slots slot retires
          behind] at slots'
        have unit : (tears w (fun _ v => v.state.isOnSlot i) s c).slots[w] = some u' := by rw [torn]; exact slots'
        rw [tears_quiet (fun c' listed => by
          rw [views c' listed]
          exact Bool.eq_false_iff.mpr (List.countP_eq_zero.mp last c' listed))]
        obtain ⟨y', slot', unpublished, -⟩ := h.slot
        rw [retire_idle unit (fun x is goes => by
          rw [Option.some.inj (slot'.symm.trans is), goes.1] at unpublished
          cases unpublished)]
        exact ⟨u', unit, h⟩
      · have stays : ¬ y.retires := fun retires => by
          have := retires.2.1
          omega
        have unit : (tears w (fun _ v => v.state.isOnSlot i) s c).slots[w] = some (u.onSlot i Slot.released) := by
          rw [torn, unpinSlot_stays (s := s.updView w c (fun v => { v with state := .torn, mark := none })) slots slot
            stays]
          exact State.withSlots_slots ..
        have released : y.released = { y with pins := y.pins - 1 } := Slot.released_stays stays
        have slot' : (u.onSlot i Slot.released).slots[i] = some { y with pins := y.pins - 1 } := by
          rw [SlotUnit.onSlot_get, if_pos rfl, slot, Option.map_some, released]
        have counted' : y.pins - 1 = l.countP (fun c' =>
            ((tears w (fun _ v => v.state.isOnSlot i) s c).view w c').any (fun v => v.pinsSlot i)) := by
          rw [more, Nat.add_sub_cancel]
          exact List.countP_congr (fun c' listed => by rw [views c' listed])
        obtain ⟨u', slots', h⟩ := ih nodup definition' unit slot' behind published unheld counted'
        rw [windows] at h
        refine ⟨u', slots', h.front, h.counter, ?_⟩
        obtain ⟨y', slot'', unpublished, retiring, freed⟩ := h.slot
        refine ⟨y', slot'', unpublished, retiring, fun flying waiting => ?_⟩
        obtain ⟨stays_free, opens⟩ := freed flying waiting
        refine ⟨stays_free, fun live unfilled unsealed full => opens live unfilled unsealed (fun j z is => ?_)⟩
        rw [SlotUnit.onSlot_get] at is
        split at is
        · obtain ⟨x, slot_j, rfl⟩ := Option.map_eq_some_iff.mp is
          next here =>
          subst here
          obtain rfl := Option.some.inj (slot.symm.trans slot_j)
          rw [released]
          exact full j y slot_j
        · exact full j z is
    · have idle : tears w (fun _ v => v.state.isOnSlot i) s c = s :=
        if_neg (by simpa only [View.isOnSlot_eq] using pinned)
      rw [idle]
      refine ih nodup definition slots slot behind published unheld ?_
      rw [counted]
      exact List.countP_cons_of_neg pinned

end Sys2Proof.Machine
end


section
/-! SUPPORT. The reclaim of the target line (R100): its seeing views torn, and the writes waiting on it released. -/

namespace Sys2Proof.Machine

theorem releaseVisibility_rolls (w : Fin 16) (s : State) : (releaseVisibility w s).rolls = s.rolls := by
  unfold releaseVisibility
  split
  · split
    · rfl
    · refine forMasters_keeps (fun t => t.rolls = s.rolls) (fun m t h => ?_) rfl
      split
      · exact h
      split
      · exact h
      · exact h
  · rfl

theorem View.isSeeing_eq (v : View) (d : Definition) : v.state.isSeeing (some d) = v.sees d := by
  obtain ⟨state, _, _, _⟩ := v
  cases state <;> rfl

theorem View.sees_iff {v : View} {d : Definition} :
    v.sees d = true ↔ ∃ o lag, v.state = .pinnedOrigin o lag ∧ d.staging ≤ lag := by
  obtain ⟨state, _, _, _⟩ := v
  cases state <;> simp [View.sees]

/-- The tearing of a view that sees the target. -/
theorem tears_seen {w : Fin 16} {c : Fin 8} {d : Definition} {v : View} {s : State} (definition : s.definition w = some d)
    (view : s.view w c = some v) (seen : v.sees d = true) : tears w (fun d v => v.state.isSeeing d) s c =
      post (.viewTorn w c) (leaveSeeing w (s.updView w c (fun v => { v with state := .torn, mark := none }))) := by
  obtain ⟨o, lag, held, late⟩ := View.sees_iff.mp seen
  have named : (s.view w c).any (fun v => v.state.isSeeing (s.definition w)) = true := by
    rw [view, definition, Option.any_some, View.isSeeing_eq]
    exact seen
  rw [tears, if_pos named, tearView_eq view, held]
  refine congrArg (post (.viewTorn w c)) (if_pos ?_)
  rw [show (s.updView w c (fun v => { v with state := .torn, mark := none })).definition w = some d from definition]
  exact decide_eq_true late

theorem tears_blind {w : Fin 16} {c : Fin 8} {d : Definition} {s : State} (definition : s.definition w = some d)
    (blind : ¬ (s.view w c).any (fun v => v.sees d) = true) : tears w (fun d v => v.state.isSeeing d) s c = s := by
  refine if_neg ?_
  rw [definition]
  simpa only [View.isSeeing_eq] using blind

/-- The seeing count as the seeing views are torn. -/
theorem tears_seeing {w : Fin 16} {d : Definition} (l : List (Fin 8)) (nodup : l.Nodup) {u : RollState} {s : State}
    (definition : s.definition w = some d) (rolls : s.rolls[w] = some u) :
    (l.foldl (tears w (fun d v => v.state.isSeeing d)) s).rolls[w] =
      some { u with seeing := u.seeing - l.countP (fun c => (s.view w c).any (fun v => v.sees d)) } := by
  induction l generalizing u s with
  | nil => exact rolls
  | cons c l ih =>
    obtain ⟨fresh, nodup⟩ := List.nodup_cons.mp nodup
    obtain ⟨windows, -, -, others⟩ := tears_frame w (fun d v => v.state.isSeeing d) s c
    have definition' : (tears w (fun d v => v.state.isSeeing d) s c).definition w = some d := by
      rw [State.definition, windows]
      exact definition
    have counted : l.countP (fun c' => ((tears w (fun d v => v.state.isSeeing d) s c).view w c').any (fun v => v.sees d)) =
        l.countP (fun c' => (s.view w c').any (fun v => v.sees d)) :=
      List.countP_congr (fun c' listed => by rw [others w c' (.inr (fun same => fresh (same ▸ listed)))])
    rw [List.foldl_cons]
    by_cases seen : (s.view w c).any (fun v => v.sees d) = true
    · obtain ⟨v, view, sees⟩ := (Option.any_eq_true _ _).mp seen
      have rolls' : (tears w (fun d v => v.state.isSeeing d) s c).rolls[w] = some { u with seeing := u.seeing - 1 } := by
        rw [tears_seen definition view sees]
        refine (congrArg (fun x : Vector (Option RollState) 16 => x[w]) (releaseVisibility_rolls w _)).trans ?_
        rw [State.updRoll_eq (s := s.updView w c (fun v => { v with state := .torn, mark := none })) rolls]
        exact State.withRoll_rolls ..
      rw [ih nodup definition' rolls', counted,
        show (c :: l).countP (fun c => (s.view w c).any (fun v => v.sees d)) = _ from List.countP_cons_of_pos seen]
      exact congrArg (fun n => some ({ u with seeing := n } : RollState)) (Nat.sub_sub ..|>.trans (by rw [Nat.add_comm]))
    · rw [tears_blind definition seen, ih nodup definition rolls,
        show (c :: l).countP (fun c => (s.view w c).any (fun v => v.sees d)) = _ from List.countP_cons_of_neg seen]

/-! ### The writes that wait on the target -/

/-- The write numbered `id` of master `m` has been released from its visibility wait, its stall timer stopped. -/
def Released (m : Fin 16) (id : Nat) (t : State) : Prop :=
  ∃ y, t.current m = some y ∧ y.id = id ∧ y.hasCond .visibility = false ∧ t.stallTimers[m] = none

/-- The write numbered `id` of master `m` still waits on the target of window `w`, or has been released. -/
def Awaiting (w m : Fin 16) (id : Nat) (t : State) : Prop :=
  (∃ y, t.current m = some y ∧ y.id = id ∧ y.awaitsTarget w = true) ∨ Released m id t

theorem Awaiting.seen {w m : Fin 16} {id : Nat} {t : State} (h : Awaiting w m id t) : Released m id (t.seen w) := by
  rcases h with ⟨y, current, same, awaits⟩ | ⟨y, current, same, clear, timer⟩
  · refine ⟨y.clearVisibility, ?_, same, y.clearVisibility_hasCond, State.seen_timer current awaits⟩
    rw [State.seen_current, current, Option.map_some, if_pos awaits]
  · have quiet : ¬ y.awaitsTarget w = true := fun awaits => by
      rw [(Entry.awaitsTarget_iff.mp awaits).2.2] at clear
      cases clear
    refine ⟨y, ?_, same, clear, ?_⟩
    · rw [State.seen_current, current, Option.map_some, if_neg quiet]
    · have cell : (t.seen w).stallTimers[m] =
          if t.responses[m].any (Entry.awaitsTarget w) then none else t.stallTimers[m] := by simp [State.seen]
      rw [cell, timer, ite_self]

theorem Awaiting.releaseVisibility {w m : Fin 16} {id : Nat} {t : State} (h : Awaiting w m id t) (one : t.oneWaiting) :
    Awaiting w m id (releaseVisibility w t) := by
  cases definition : t.definition w with
  | none => rwa [Machine.releaseVisibility, definition]
  | some d =>
    cases rolls : t.rolls[w] with
    | none => rwa [Machine.releaseVisibility, definition, rolls]
    | some u =>
      rw [releaseVisibility_eq one definition rolls]
      split
      · exact .inr h.seen
      · exact h

theorem tears_awaiting {w m : Fin 16} {id : Nat} {d : Definition} (l : List (Fin 8)) {s : State} (one : s.oneWaiting)
    (definition : s.definition w = some d) (h : Awaiting w m id s) :
    let t := l.foldl (tears w (fun d v => v.state.isSeeing d)) s
    t.oneWaiting ∧ t.definition w = some d ∧ Awaiting w m id t := by
  induction l generalizing s with
  | nil => exact ⟨one, definition, h⟩
  | cons c l ih =>
    obtain ⟨windows, -⟩ := tears_frame w (fun d v => v.state.isSeeing d) s c
    have definition' : (tears w (fun d v => v.state.isSeeing d) s c).definition w = some d := by
      rw [State.definition, windows]
      exact definition
    by_cases seen : (s.view w c).any (fun v => v.sees d) = true
    · obtain ⟨v, view, sees⟩ := (Option.any_eq_true _ _).mp seen
      have torn := tears_seen definition view sees
      have left : (leaveSeeing w (s.updView w c (fun v => { v with state := .torn, mark := none }))).oneWaiting :=
        State.oneWaiting.works (s := s.updView w c (fun v => { v with state := .torn, mark := none })) one
          (works_leaveSeeing ..)
      have one' : (tears w (fun d v => v.state.isSeeing d) s c).oneWaiting := by rw [torn]; exact left
      have awaiting := Awaiting.releaseVisibility (w := w) (t := (s.updView w c
        (fun v => { v with state := .torn, mark := none })).updRoll w (fun u => { u with seeing := u.seeing - 1 })) h one
      exact ih one' definition' (by rw [torn]; exact awaiting)
    · rw [List.foldl_cons, tears_blind definition seen]
      exact ih one definition h

end Sys2Proof.Machine

namespace Sys2Proof
open Machine

/-- Settles O38: the slot reclaimed by `tears_reclaims`, the target by `tears_seeing` and `tears_awaiting`. -/
theorem reclaimTearsViews : Obligations.ReclaimTearsViews := by
  refine ⟨fun m x e w d u s timer late current slotWait window definition policy slots => ?_,
    fun m x e w d u s timer late current waits window definition policy rolls => ?_⟩
  · have inSlotWait : e.inSlotWait = true := by rw [Entry.inSlotWait, slotWait]; rfl
    have runs : exec (.slotWaitTimerExpiry m) s = .next (reclaimSlot w (stopTimer m s)) := by
      refine congrArg Host.Outcome.next (?_ : expireSlotWait m s = _)
      rw [expireSlotWait_due (timerDue_late timer late) current inSlotWait window definition, policy]
    have unit : (stopTimer m s).slots[w] = some u := slots
    refine ⟨fun none_old => ?_, fun i y g behind slot published most unheld counted => ?_⟩
    · rw [runs]
      refine congrArg Host.Outcome.next ?_
      rw [reclaimSlot, unit, Option.bind_some, SlotUnit.oldest_none none_old]
      rfl
    · have reclaimed : reclaimSlot w (stopTimer m s) = retire w i (tearSlot w i (stopTimer m s)) := by
        rw [reclaimSlot, unit, Option.bind_some, SlotUnit.oldest_some behind slot published most]
      rw [reclaimed, tearSlot_eq] at runs
      obtain ⟨u', slots', h⟩ := tears_reclaims consumerNumbers (by decide) (s := stopTimer m s) definition unit slot behind
        (by rw [Slot.isPublished, published]) unheld counted
      obtain ⟨windows, stops, views⟩ := foldl_tears_frame (w := w) (named := fun _ v => v.state.isOnSlot i) consumerNumbers
        (by decide) (stopTimer m s)
      generalize consumerNumbers.foldl (tears w (fun _ v => v.state.isOnSlot i)) (stopTimer m s) = t at *
      obtain ⟨y', slot', unpublished, retiring, freed⟩ := h.slot
      have stopped : (stopTimer m s).stallTimers[m] = none := Vector.getElem_set_self ..
      refine ⟨_, u', y', runs, slots', h.front, h.counter, (stops.trans (stops_retire w i t)).stopped stopped, slot',
        unpublished, retiring, fun flying waiting => (freed flying waiting), fun c v g' view held => ?_,
        fun w' c v view other => ?_⟩
      · rw [(shifts_retire w i t).view, views, if_pos ⟨rfl, mem_consumerNumbers c⟩]
        show (s.view w c).map _ = _
        rw [view, Option.map_some, View.isOnSlot_eq, if_pos (View.pinsSlot_iff.mpr ⟨g', held⟩)]
      · rw [(shifts_retire w i t).view, views]
        show (if _ then (s.view w' c).map _ else s.view w' c) = _
        rw [view]
        split
        · next here =>
          have unpinned : ¬ v.pinsSlot i = true := fun pins => by
            obtain ⟨g', held⟩ := View.pinsSlot_iff.mp pins
            exact other.elim (fun h => h here.1) (fun h => h g' held)
          rw [Option.map_some, View.isOnSlot_eq, if_neg unpinned]
        · rfl
  · have runs : exec (.visibilityWaitTimerExpiry m) s = .next (releaseVisibility w (tearSeeing w (stopTimer m s))) := by
      refine congrArg Host.Outcome.next (?_ : expireVisibilityWait m s = _)
      rw [expireVisibilityWait_due (timerDue_late timer late) current waits window definition, policy]
      rfl
    rw [tearSeeing_eq] at runs
    have seeing := tears_seeing consumerNumbers (by decide) (s := stopTimer m s) definition rolls
    obtain ⟨windows, stops, views⟩ := foldl_tears_frame (w := w) (named := fun d v => v.state.isSeeing d) consumerNumbers
      (by decide) (stopTimer m s)
    have shown (w' : Fin 16) (c : Fin 8) : (consumerNumbers.foldl (tears w (fun d v => v.state.isSeeing d))
        (stopTimer m s)).view w' c = if w' = w ∧ c ∈ consumerNumbers then (s.view w' c).map (fun v =>
          if v.sees d then { v with state := .torn, mark := none } else v) else s.view w' c := by
      rw [views, show (stopTimer m s).definition w = some d from definition]
      simp only [View.isSeeing_eq]
      rfl
    have waiting (one : s.oneWaiting) (m' : Fin 16) (e' : Entry) (h : Awaiting w m' e'.id (stopTimer m s)) :=
      tears_awaiting consumerNumbers (s := stopTimer m s) one definition h
    generalize consumerNumbers.foldl (tears w (fun d v => v.state.isSeeing d)) (stopTimer m s) = t at *
    have stopped : (stopTimer m s).stallTimers[m] = none := Vector.getElem_set_self ..
    refine ⟨_, _, runs, (congrArg (fun x : Vector (Option RollState) 16 => x[w]) (releaseVisibility_rolls w t)).trans seeing,
      rfl, rfl, rfl, (stops.trans (stops_releaseVisibility w t)).stopped stopped, fun all => ⟨?_,
        fun one _ unread m' e' current' awaits => ?_⟩, fun c v o lag view held seen => ?_, fun w' c v view other => ?_⟩
    · exact Nat.sub_eq_zero_of_le all.le
    · obtain ⟨one', definition', awaiting⟩ := waiting one m' e' (.inl ⟨e', current', rfl, awaits⟩)
      have clear : RollState.clear { u with seeing := (u.seeing - consumerNumbers.countP (fun c =>
          ((stopTimer m s).view w c).any (fun v => v.sees d))) } d = true := by
        rw [RollState.clear, Bool.and_eq_true]
        exact ⟨decide_eq_true (Nat.sub_eq_zero_of_le all.le), decide_eq_true unread⟩
      rw [releaseVisibility_eq one' definition' seeing, if_pos clear]
      obtain ⟨y, now, same, cleared, timer'⟩ := awaiting.seen
      exact ⟨timer', y, now, same, cleared⟩
    · rw [(shifts_releaseVisibility w t).view, shown, if_pos ⟨rfl, mem_consumerNumbers c⟩, view, Option.map_some,
        if_pos (View.sees_iff.mpr ⟨o, lag, held, seen⟩)]
    · rw [(shifts_releaseVisibility w t).view, shown, view]
      split
      · next here =>
        have blind : ¬ v.sees d = true := fun sees => by
          obtain ⟨o, lag, held, late⟩ := View.sees_iff.mp sees
          exact other.elim (fun h => h here.1) (fun h => absurd (h o lag held) (Nat.not_lt.mpr late))
        rw [Option.map_some, if_neg blind]
      · rfl

end Sys2Proof
end


section
/-! SUPPORT. What the waiting requests come to while others are answered (R64, R101, R133, R135, R163). -/

namespace Sys2Proof.Machine

/-! ### Requests that wait on -/

/-- The waiting request `e` of a state `s` has become `e'`, which waits too: it is within reach as it was, unless an
allocation has mapped it, and waits for a slot only where it did. -/
structure Entry.Stays (s : State) (e e' : Entry) : Prop where
  name  : e'.name = e.name
  reach : e'.reachable = true → e.reachable = true ∨
    (e.inSlotWait = true ∧ ∃ w : Fin 16, e.window = some w ∧ s.windows[w].state = .live)
  kept  : e.reachable = true → e'.reachable = true
  slot  : e'.inSlotWait = true → e.inSlotWait = true ∧ (e.pieces = [] → e'.pieces = [])

/-- From `s` to `t` no request began to wait and no stall timer started: each that waits has waited, and that of each
answered has stopped. -/
structure Follows (s t : State) : Prop where
  states : ∀ w : Fin 16, t.windows[w].state = s.windows[w].state
  stays  : ∀ m e', t.current m = some e' → ∃ e, s.current m = some e ∧ e.Stays s e'
  ended  : ∀ (m : Fin 16) e, s.current m = some e → t.current m = none → t.stallTimers[m] = none
  stops  : Stops s t

namespace Entry.Stays

theorem refl (s : State) (e : Entry) : e.Stays s e := ⟨rfl, .inl, fun h => h, fun h => ⟨h, fun none => none⟩⟩

theorem trans {s t : State} {e e' e'' : Entry} (states : ∀ w : Fin 16, t.windows[w].state = s.windows[w].state)
    (a : e.Stays s e') (b : e'.Stays t e'') : e.Stays s e'' where
  name := b.name.trans a.name
  reach h := by
    rcases b.reach h with near | ⟨waits, w, window, live⟩
    · exact a.reach near
    · have same : e'.window = e.window := congrArg (fun n => n.2.2) a.name
      exact .inr ⟨(a.slot waits).1, w, same.symm.trans window, (states w).symm.trans live⟩
  kept h := b.kept (a.kept h)
  slot h := by
    obtain ⟨waits', pieces'⟩ := b.slot h
    obtain ⟨waits, pieces⟩ := a.slot waits'
    exact ⟨waits, fun none => pieces' (pieces none)⟩

theorem window {s : State} {e e' : Entry} (h : e.Stays s e') : e'.window = e.window := congrArg (fun n => n.2.2) h.name

theorem request {s : State} {e e' : Entry} (h : e.Stays s e') : e'.request = e.request :=
  congrArg (fun n => n.2.1) h.name

/-- An entry whose wait and whose pieces' stages are the same. -/
theorem of_pieces {s : State} {e e' : Entry} (name : e'.name = e.name) (stage : e'.stage = e.stage)
    (pieces : e'.pieces = e.pieces) : e.Stays s e' := by
  have reach : e'.reachable = e.reachable := by rw [Entry.reachable, pieces]; rfl
  have slot : e'.inSlotWait = e.inSlotWait := by rw [Entry.inSlotWait, stage]; rfl
  exact ⟨name, fun h => .inl (reach ▸ h), fun h => reach ▸ h, fun h => ⟨slot ▸ h, pieces.trans⟩⟩

end Entry.Stays

namespace Follows

theorem refl (s : State) : Follows s s :=
  ⟨fun _ => rfl, fun _ e h => ⟨e, h, .refl s e⟩, fun _ _ h n => (nomatch h.symm.trans n), .refl s⟩

theorem trans {s t u : State} (a : Follows s t) (b : Follows t u) : Follows s u where
  states w := (b.states w).trans (a.states w)
  stays m e'' current := by
    obtain ⟨e', current', stays'⟩ := b.stays m e'' current
    obtain ⟨e, before, stays⟩ := a.stays m e' current'
    exact ⟨e, before, stays.trans a.states stays'⟩
  ended m e before gone := by
    cases between : t.current m with
    | none => exact b.stops.stopped (a.ended m e before between)
    | some e' => exact b.ended m e' between gone
  stops := a.stops.trans b.stops

/-- Lists whose entries wait on as they did. -/
theorem of_map {s t : State} (f : Fin 16 → Entry → Entry) (states : ∀ w : Fin 16, t.windows[w].state = s.windows[w].state)
    (lists : ∀ m : Fin 16, t.responses[m] = s.responses[m].map (f m)) (waiting : ∀ m e, (f m e).isWaiting = e.isWaiting)
    (stays : ∀ (m : Fin 16) (e : Entry), e.isWaiting = true → e.Stays s (f m e)) (stops : Stops s t) : Follows s t := by
  have currents (m : Fin 16) : t.current m = (s.current m).map (f m) := State.current_map (lists m) (waiting m)
  refine ⟨states, fun m e' current => ?_, fun m e before gone => ?_, stops⟩
  · rw [currents] at current
    obtain ⟨e, before, rfl⟩ := Option.map_eq_some_iff.mp current
    exact ⟨e, before, stays m e (State.current_eq_some before).2⟩
  · rw [currents, before] at gone
    cases gone

theorem of_same {s t : State} (states : ∀ w : Fin 16, t.windows[w].state = s.windows[w].state)
    (responses : t.responses = s.responses) (timers : t.stallTimers = s.stallTimers) : Follows s t :=
  of_map (fun _ => id) states (fun m => by rw [responses, List.map_id]) (fun _ _ => rfl) (fun _ e _ => .refl s e)
    (.of_same timers)

theorem foldl {α : Type} {f : State → α → State} {l : List α} {s : State} (one : s.oneWaiting)
    (works : ∀ t x, Works t (f t x)) (step : ∀ t x, t.oneWaiting → Follows t (f t x)) : Follows s (l.foldl f s) := by
  induction l generalizing s with
  | nil => exact .refl s
  | cons x l ih => exact (step s x one).trans (ih (one.works (works s x)))

end Follows

/-! ### The slot manager and the roll unit -/

theorem freshPieces_unissued (d : Definition) (i : Fin 4) (r : Request) :
    (freshPieces d i r).all Piece.unissued = true := by
  unfold freshPieces cut
  extract_lets b n
  split <;> rfl

theorem Entry.filled_stays {w : Fin 16} {d : Definition} {i : Fin 4} {s : State} {e : Entry}
    (waits : e.awaitsSlot w = true) (live : s.windows[w].state = .live) : e.Stays s (e.filled d i) := by
  obtain ⟨window, waits⟩ := Entry.awaitsSlot_iff.mp waits
  refine ⟨rfl, fun _ => .inr ⟨waits, w, window, live⟩, fun _ => ?_, fun h => absurd h Bool.false_ne_true⟩
  exact freshPieces_unissued ..

theorem follows_allocateSlot {w : Fin 16} {d : Definition} {u : SlotUnit} {i : Fin 4} {x : Slot} {s : State}
    (one : s.oneWaiting) (live : s.windows[w].state = .live) (definition : s.definition w = some d)
    (slots : s.slots[w] = some u) (slot : u.slots[i] = some x) : Follows s (allocateSlot w d u i s) := by
  have allocates := allocateSlot_allocates one definition slots slot
  refine .of_map (fun _ e => if e.awaitsSlot w = true then e.filled d i else e) (fun v => by rw [allocates.shifts.windows])
    (fun m => (allocates.cells m).1) (fun m e => ?_) (fun m e _ => ?_) ⟨fun m => ?_⟩
  · split
    · next waits => rw [Entry.isWaiting_of_awaitsSlot waits]; rfl
    · rfl
  · split
    · next waits => exact Entry.filled_stays waits live
    · exact .refl s e
  · rw [(allocates.cells m).2]
    split
    · exact .inr rfl
    · exact .inl rfl

theorem follows_allocate {w : Fin 16} {s : State} (one : s.oneWaiting) : Follows s (allocate w s) := by
  unfold allocate
  split
  · exact .refl s
  next live =>
  split
  · split
    · exact .refl s
    split
    · exact .refl s
    · obtain ⟨x, slot, -⟩ := SlotUnit.lowestFree_free ‹_›
      exact follows_allocateSlot one (not_not.mp live) ‹_› ‹_› slot
  · exact .refl s

theorem follows_freeRetiring {w : Fin 16} {i : Fin 4} {s : State} (one : s.oneWaiting) :
    Follows s (freeRetiring w i s) := by
  unfold freeRetiring
  split
  · exact .refl s
  split
  · exact .trans (t := s.updSlot w i (fun x => { x with state := .free })) (.of_same (fun _ => rfl) rfl rfl)
      (follows_allocate one)
  · exact .refl s

theorem Entry.clearVisibility_stays (s : State) (e : Entry) : e.Stays s e.clearVisibility := by
  have reach : e.clearVisibility.reachable = e.reachable := by
    rw [Entry.clearVisibility_eq, Entry.reachable, Entry.reachable, List.all_map]
    rfl
  refine ⟨rfl, fun h => .inl (reach ▸ h), fun h => reach ▸ h, fun h => ⟨h, fun none => ?_⟩⟩
  rw [Entry.clearVisibility, none]
  rfl

theorem follows_releaseVisibility {w : Fin 16} {s : State} (one : s.oneWaiting) :
    Follows s (releaseVisibility w s) := by
  have stops := stops_releaseVisibility w s
  cases definition : s.definition w with
  | none => simp only [releaseVisibility, definition]; exact .refl s
  | some d =>
    cases rolls : s.rolls[w] with
    | none => simp only [releaseVisibility, definition, rolls]; exact .refl s
    | some u =>
      rw [releaseVisibility_eq one definition rolls] at stops
      rw [releaseVisibility_eq one definition rolls]
      split
      · next clear =>
        rw [if_pos clear] at stops
        refine .of_map (fun _ e => if e.awaitsTarget w = true then e.clearVisibility else e) (fun _ => rfl)
          (fun m => by simp [State.seen]) (fun m e => ?_) (fun m e _ => ?_) stops
        · split <;> rfl
        · split
          · exact e.clearVisibility_stays s
          · exact .refl s e
      · exact .refl s

/-! ### Answers -/

namespace Follows

theorem none {s t : State} (h : Follows s t) {m : Fin 16} (before : s.current m = none) : t.current m = .none := by
  cases after : t.current m with
  | none => rfl
  | some e =>
    obtain ⟨e', is, -⟩ := h.stays m e after
    cases before.symm.trans is

end Follows

theorem follows_forgetPiece {w : Fin 16} {p : Piece} {s : State} (one : s.oneWaiting) :
    Follows s (forgetPiece w p s) := by
  unfold forgetPiece
  split
  · exact .refl s
  split
  · exact .refl s
  · next i _ =>
    exact .trans (t := s.updSlot w i (fun x => { x with waiting := x.waiting - 1 })) (.of_same (fun _ => rfl) rfl rfl)
      (follows_freeRetiring one)
  · exact .refl s
  · next q _ =>
    unfold lowerRead
    extract_lets t
    have lowered : Follows s t := .of_same (fun _ => rfl) rfl rfl
    split
    · split
      · exact lowered.trans (follows_releaseVisibility (s := t) one)
      · exact lowered
    · exact lowered

/-- A master's waiting request has been answered, and nothing follows from it yet. -/
theorem follows_answered {m : Fin 16} {e : Entry} {s t : State} (one : s.oneWaiting) (current : s.current m = some e)
    {f : Entry → Entry} (done : (f e).isWaiting = false)
    (states : ∀ w : Fin 16, t.windows[w].state = s.windows[w].state)
    (responses : t.responses = (s.updEntry m e.id f).responses) (timers : t.stallTimers = s.stallTimers.set m none) :
    Follows s t ∧ t.current m = none := by
  have same (n : Fin 16) : t.current n = (s.updEntry m e.id f).current n :=
    congrArg (fun r : Vector (List Entry) 16 => r[n].find? Entry.isWaiting) responses
  have gone : t.current m = none := by
    rw [same, one.current_updEntry current, if_neg (by rw [done]; exact Bool.false_ne_true)]
  have others (n : Fin 16) (other : n ≠ m) : t.current n = s.current n :=
    (same n).trans (State.current_updEntry_ne s other ..)
  refine ⟨⟨states, fun n x is => ?_, fun n x is none => ?_, .stop timers⟩, gone⟩
  · have other : n ≠ m := by
      rintro rfl
      cases gone.symm.trans is
    exact ⟨x, (others n other).symm.trans is, .refl s x⟩
  · by_cases here : n = m
    · subst here
      rw [timers]
      exact Vector.getElem_set_self ..
    · cases (others n here).symm.trans none |>.symm.trans is

theorem State.updWindow_state {w : Fin 16} {f : Window → Window} (keeps : ∀ x, (f x).state = x.state) (s : State)
    (v : Fin 16) : (s.updWindow w f).windows[v].state = s.windows[v].state := by
  rw [State.updWindow_windows]
  by_cases here : w = v
  · subst here
    rw [upd_same, keeps]
  · rw [upd_ne _ _ here]

theorem follows_lowerDrain (w : Fin 16) (s : State) : Follows s (lowerDrain w s) := .of_same (fun _ => rfl) rfl rfl

theorem answerWaiting_follows {m : Fin 16} {reason : Reason} {s : State} (one : s.oneWaiting) :
    Follows s (answerWaiting m reason s) ∧ (answerWaiting m reason s).current m = none := by
  unfold answerWaiting
  split
  · next current => exact ⟨.refl s, current⟩
  next e current =>
  extract_lets t
  obtain ⟨follows, gone⟩ := follows_answered (t := t) one current (f := fun x =>
    { x with stage := .complete (deniedResponse x.request), inDrain := false }) rfl (fun _ => rfl) rfl rfl
  have one' : t.oneWaiting := one.works (.trans (t := s.updEntry m e.id (fun x =>
    { x with stage := .complete (deniedResponse x.request), inDrain := false }))
    (.updCurrent s m e current _ (fun _ => rfl)) (works_stopTimer m _))
  split
  · exact ⟨follows, gone⟩
  next w _ =>
  extract_lets lowered drained posted
  have counted : Follows t drained ∧ Works t drained := by
    have lowers : Follows t lowered := .of_same
      (State.updWindow_state (f := fun x => { x with waiting := x.waiting - 1 }) (fun _ => rfl) t) rfl rfl
    unfold drained
    split
    · exact ⟨lowers.trans (follows_lowerDrain ..), (works_lowerWaiting w t).trans (works_lowerDrain ..)⟩
    · exact ⟨lowers, works_lowerWaiting w t⟩
  have posts : Follows drained posted := .of_same (fun _ => rfl) rfl rfl
  have forgotten : Follows posted (e.pieces.foldl (fun t p => forgetPiece w p t) posted) :=
    .foldl (one'.works (counted.2.trans (.post ..))) (fun t p => works_forgetPiece w p t)
      (fun t p one => follows_forgetPiece one)
  have all := counted.1.trans (posts.trans forgotten)
  exact ⟨follows.trans all, all.none gone⟩

/-- After the turns of the masters `done`, in which every waiting request that passes `goal` was answered. -/
structure Ends (goal : Entry → Bool) (s : State) (done : List (Fin 16)) (t : State) : Prop where
  one     : t.oneWaiting
  follows : Follows s t
  ends    : ∀ n ∈ done, ∀ e, t.current n = some e → goal e = false

theorem Ends.idle {goal : Entry → Bool} {s t : State} {done : List (Fin 16)} {m : Fin 16} (h : Ends goal s done t)
    (fails : ∀ e, t.current m = some e → goal e = false) : Ends goal s (done ++ [m]) t := by
  refine ⟨h.one, h.follows, fun n listed => ?_⟩
  rcases List.mem_append.mp listed with before | here
  · exact h.ends n before
  · exact List.mem_singleton.mp here ▸ fails

/-- Where no request comes to pass `goal` by waiting on, all that pass it are answered. -/
theorem answerAll_ends {test goal : Entry → Bool} {reason : Reason} {s : State} (one : s.oneWaiting)
    (covers : ∀ e, goal e = true → test e = true)
    (closed : ∀ t m e e', Follows s t → t.current m = some e → e.Stays t e' → goal e' = true → goal e = true) :
    Ends goal s masters (answerAll test reason s) := by
  unfold answerAll
  refine forMasters_induct (P := Ends goal s) ⟨one, .refl s, fun _ h => (nomatch h)⟩ (fun done m t fresh h => ?_)
  split
  · next current => exact h.idle (fun e is => nomatch current.symm.trans is)
  next e current =>
  split
  · obtain ⟨answer, gone⟩ := answerWaiting_follows (m := m) (reason := reason) h.one
    refine ⟨h.one.works (works_answerWaiting ..), h.follows.trans answer, fun n listed x is => ?_⟩
    rcases List.mem_append.mp listed with before | here
    · obtain ⟨x', is', stays⟩ := answer.stays n x is
      by_contra passes
      have passed := closed t n x' x h.follows is' stays (Bool.eq_true_of_not_eq_false passes)
      rw [h.ends n before x' is'] at passed
      cases passed
    · obtain rfl := List.mem_singleton.mp here
      cases gone.symm.trans is
  · next fails =>
    exact h.idle (fun x is => Option.some.inj (current.symm.trans is) ▸ Bool.eq_false_iff.mpr (fun h => fails (covers e h)))

/-! ### What answers leave of a window that allocates nothing -/

/-- What a window's slots are known by, their records apart. -/
def SlotUnit.roles (u : SlotUnit) : Option (Fin 4) × Option (Fin 4) × Fin 4 × BitVec 32 :=
  (u.filling, u.sealed, u.front, u.counter)

theorem SlotUnit.of_roles {u u' : SlotUnit} (h : u'.roles = u.roles) :
    u'.filling = u.filling ∧ u'.sealed = u.sealed ∧ u'.front = u.front ∧ u'.counter = u.counter := by
  simpa [SlotUnit.roles] using h

/-- An allocation attempt of window `w` does nothing: it is not LIVE, or has a FILLING or a SEALED slot (R46). -/
def State.allocatesNone (s : State) (w : Fin 16) : Prop :=
  s.windows[w].state ≠ .live ∨ ∀ u, s.slots[w] = some u → u.filling ≠ none ∨ u.sealed ≠ none

/-- From `s` to `t` requests of window `w` were answered, which allocates nothing. -/
structure Denies (w : Fin 16) (s t : State) : Prop where
  window  : ∃ n, t.windows[w] = { s.windows[w] with waiting := n }
  copier  : t.copier = s.copier
  roles   : t.slots[w].map SlotUnit.roles = s.slots[w].map SlotUnit.roles
  commits : s.commits[w].current = none → t.commits[w] = s.commits[w]
  queue   : t.commits[w].queue = s.commits[w].queue

namespace Denies

theorem refl (w : Fin 16) (s : State) : Denies w s s := ⟨⟨_, rfl⟩, rfl, rfl, fun _ => rfl, rfl⟩

theorem trans {w : Fin 16} {s t u : State} (a : Denies w s t) (b : Denies w t u) : Denies w s u := by
  obtain ⟨n, window⟩ := a.window
  obtain ⟨k, window'⟩ := b.window
  exact ⟨⟨k, by rw [window', window]⟩, b.copier.trans a.copier, b.roles.trans a.roles,
    fun idle => (b.commits (by rw [a.commits idle]; exact idle)).trans (a.commits idle),
    b.queue.trans a.queue⟩

theorem of_same {w : Fin 16} {s t : State} (windows : t.windows = s.windows) (copier : t.copier = s.copier)
    (slots : t.slots = s.slots) (commits : t.commits = s.commits) : Denies w s t :=
  ⟨⟨s.windows[w].waiting, by rw [windows]⟩, copier, by rw [slots], fun _ => by rw [commits], by rw [commits]⟩

theorem state {w : Fin 16} {s t : State} (h : Denies w s t) : t.windows[w].state = s.windows[w].state := by
  obtain ⟨n, window⟩ := h.window
  rw [window]

/-- The roles of a window's slots, there where they are known. -/
theorem unit {w : Fin 16} {s t : State} (h : Denies w s t) {u : SlotUnit} (slots : t.slots[w] = some u) :
    ∃ u₀, s.slots[w] = some u₀ ∧ u.roles = u₀.roles := by
  have roles := h.roles
  rw [slots] at roles
  obtain ⟨u₀, is, same⟩ := Option.map_eq_some_iff.mp roles.symm
  exact ⟨u₀, is, same.symm⟩

theorem allocatesNone {w : Fin 16} {s t : State} (h : Denies w s t) (none : s.allocatesNone w) : t.allocatesNone w := by
  refine none.imp (fun idle => by rw [h.state]; exact idle) (fun busy u slots => ?_)
  obtain ⟨u₀, is, roles⟩ := h.unit slots
  obtain ⟨filling, sealed, -⟩ := SlotUnit.of_roles roles
  rw [filling, sealed]
  exact busy u₀ is

end Denies

theorem denies_updSlot (w : Fin 16) (i : Fin 4) (f : Slot → Slot) (s : State) : Denies w s (s.updSlot w i f) := by
  refine ⟨⟨_, rfl⟩, rfl, ?_, fun _ => rfl, rfl⟩
  rw [State.updSlot_onSlots, State.onSlots_get, Option.map_map]
  rfl

theorem denies_freeRetiring {w : Fin 16} {i : Fin 4} {s : State} (none : s.allocatesNone w) :
    Denies w s (freeRetiring w i s) := by
  unfold freeRetiring
  split
  · exact .refl w s
  split
  · have freed := denies_updSlot w i (fun x => { x with state := .free }) s
    rw [allocate_idle (freed.allocatesNone none)]
    exact freed
  · exact .refl w s

theorem releaseVisibility_frame (w : Fin 16) (s : State) : releaseVisibility w s = { s with
    responses := (releaseVisibility w s).responses, stallTimers := (releaseVisibility w s).stallTimers } := by
  unfold releaseVisibility
  split
  · split
    · rfl
    · refine forMasters_keeps (fun t => t = { s with responses := t.responses, stallTimers := t.stallTimers })
        (fun m t h => ?_) rfl
      split
      · exact h
      split
      · rw [h]
        rfl
      · exact h
  · rfl

theorem denies_releaseVisibility (w : Fin 16) (s : State) : Denies w s (releaseVisibility w s) := by
  rw [releaseVisibility_frame]
  exact .of_same rfl rfl rfl rfl

theorem denies_forgetPiece {w : Fin 16} {p : Piece} {s : State} (none : s.allocatesNone w) :
    Denies w s (forgetPiece w p s) := by
  unfold forgetPiece
  split
  · exact .refl w s
  split
  · exact .refl w s
  · next i _ =>
    have lowered := denies_updSlot w i (fun x => { x with waiting := x.waiting - 1 }) s
    exact lowered.trans (denies_freeRetiring (lowered.allocatesNone none))
  · exact .refl w s
  · next q _ =>
    unfold lowerRead
    extract_lets t
    have lowered : Denies w s t := .of_same rfl rfl rfl rfl
    split
    · split
      · exact lowered.trans (denies_releaseVisibility w t)
      · exact lowered
    · exact lowered

theorem denies_forgetPieces {w : Fin 16} {pieces : List Piece} {s : State} (none : s.allocatesNone w) :
    Denies w s (pieces.foldl (fun t p => forgetPiece w p t) s) := by
  induction pieces generalizing s with
  | nil => exact .refl w s
  | cons p pieces ih =>
    have first := denies_forgetPiece (p := p) none
    exact first.trans (ih (first.allocatesNone none))

theorem denies_answerWaiting {w m : Fin 16} {e : Entry} {reason : Reason} {s : State} (none : s.allocatesNone w)
    (current : s.current m = some e) (window : e.window = some w) : Denies w s (answerWaiting m reason s) := by
  have answered : Denies w s (s.answered m e w reason) := by
    refine ⟨⟨s.windows[w].waiting - 1, Vector.getElem_set_self ..⟩, rfl, rfl, fun idle => ?_, ?_⟩
    · show (if e.inDrain then _ else s.commits)[w] = s.commits[w]
      split
      · refine (Vector.getElem_set_self ..).trans ?_
        generalize s.commits[w] = c at idle
        obtain ⟨_, current', _⟩ := c
        obtain rfl : current' = .none := idle
        rfl
      · rfl
    · show ((if e.inDrain then _ else s.commits)[w]).queue = s.commits[w].queue
      split
      · rw [Fin.getElem_fin, Vector.getElem_set_self]
      · rfl
  rw [answerWaiting_eq current window]
  exact answered.trans (denies_forgetPieces (answered.allocatesNone none))

theorem denies_answerAll {w : Fin 16} {test : Entry → Bool} {reason : Reason} {s : State} (none : s.allocatesNone w)
    (inside : ∀ e, test e = true → e.window = some w) : Denies w s (answerAll test reason s) := by
  unfold answerAll
  refine forMasters_keeps (fun t => Denies w s t) (fun m t h => ?_) (.refl w s)
  split
  · exact h
  split
  · next e current passes =>
    exact h.trans (denies_answerWaiting (h.allocatesNone none) current (inside e passes))
  · exact h

end Sys2Proof.Machine
end


section
/-! SUPPORT. The steps of a halt (R38): the discards of slots and of commits, and the copier rid of a window's jobs. -/

namespace Sys2Proof.Machine

/-! ### Discarded commits (R127, R133) -/

theorem follows_releaseTrigger (trigger : Option (Fin 16 × Nat)) (taken : Bool) (s : State) :
    Follows s (releaseTrigger trigger taken s) := by
  unfold releaseTrigger
  split
  · exact .refl s
  next m id =>
  refine .of_map (fun n e => if n = m ∧ e.id = id then e.resolve taken else e) (fun _ => rfl) (fun n => ?_) (fun n e => ?_)
    (fun n e waits => ?_) (.of_same rfl)
  · rw [State.updEntry_responses]
    by_cases here : n = m
    · subst here
      rw [upd_same]
      exact List.map_congr_left (fun e _ => by simp only [true_and])
    · rw [upd_ne _ _ (Ne.symm here)]
      simp only [here, false_and, if_false, List.map_id']
  · split
    · exact e.resolve_isWaiting taken
    · rfl
  · split
    · have unheld : e.stage ≠ .held := fun held => by rw [Entry.isWaiting, held] at waits; cases waits
      have resolved : e.resolve taken = { e with unresolved := e.unresolved - 1, anyTaken := e.anyTaken || taken } :=
        if_neg unheld
      rw [resolved]
      exact .of_pieces rfl rfl rfl
    · exact .refl s e

theorem releaseTrigger_frame (trigger : Option (Fin 16 × Nat)) (taken : Bool) (s : State) :
    releaseTrigger trigger taken s = { s with responses := (releaseTrigger trigger taken s).responses } := by
  cases trigger <;> rfl

theorem discardCommits_frame (w : Fin 16) (reason : Reason) (l : List Commit) (s : State) :
    let t := l.foldl (fun t c => discardCommit w reason c t) s
    t = { s with responses := t.responses, notice := t.notice } ∧ Follows s t := by
  induction l generalizing s with
  | nil => exact ⟨rfl, .refl s⟩
  | cons c l ih =>
    obtain ⟨frame, follows⟩ := ih (discardCommit w reason c s)
    have first : discardCommit w reason c s = { s with
        responses := (discardCommit w reason c s).responses, notice := (discardCommit w reason c s).notice } := by
      unfold discardCommit
      rw [releaseTrigger_frame]
      rfl
    refine ⟨?_, .trans (t := discardCommit w reason c s) ?_ follows⟩
    · rw [List.foldl_cons, frame, first]
    · exact .trans (t := post (.commitDiscarded w reason c.master 0) s) (.of_same (fun _ => rfl) rfl rfl)
        (follows_releaseTrigger ..)

theorem Entry.leaveDrain_stays (w : Fin 16) (s : State) (e : Entry) : e.Stays s (e.leaveDrain w) := by
  unfold Entry.leaveDrain
  split
  · exact .of_pieces rfl rfl rfl
  · exact .refl s e

theorem Entry.leaveDrain_isWaiting (w : Fin 16) (e : Entry) : (e.leaveDrain w).isWaiting = e.isWaiting := by
  unfold Entry.leaveDrain
  split <;> rfl

theorem discardAll_frame (w : Fin 16) (reason : Reason) (s : State) : discardAll w reason s = { s with
    responses := (discardAll w reason s).responses, notice := (discardAll w reason s).notice
    commits := s.commits.set w .reset } := by
  unfold discardAll
  extract_lets commits t
  obtain ⟨frame, -⟩ := discardCommits_frame w reason commits t
  rw [frame]
  rfl

theorem follows_discardAll (w : Fin 16) (reason : Reason) (s : State) : Follows s (discardAll w reason s) := by
  unfold discardAll
  extract_lets commits t
  have left : Follows s t := .of_map (fun _ => Entry.leaveDrain w) (fun _ => rfl)
    (fun m => Vector.getElem_map ..) (fun _ e => e.leaveDrain_isWaiting w) (fun _ e _ => e.leaveDrain_stays w s)
    (.of_same rfl)
  exact left.trans (discardCommits_frame w reason commits t).2

/-! ### The copier without a window's work (R84) -/

/-- The copier has no work for window `w` left but a dropped copy's bursts. -/
structure Copier.Rid (w : Fin 16) (c : Copier) : Prop where
  job    : c.jobs[w] = none
  urgent : ∀ a ∈ c.urgent, a.window ≠ w
  copy   : ∀ y, c.copy = some y → y.window = w → y.dropped = true

theorem startCopy_rid {w v : Fin 16} {i : Fin 4} {b : Nat} {s : State} (rid : s.copier.Rid w) (other : v ≠ w) :
    (startCopy v i b s).copier.Rid w := by
  unfold startCopy
  split
  · exact rid
  · refine ⟨rid.job, rid.urgent, fun y copy here => ?_⟩
    obtain rfl := Option.some.inj copy
    exact absurd here other

theorem kickCopier_rid {w : Fin 16} {s : State} (rid : s.copier.Rid w) : (kickCopier s).copier.Rid w := by
  unfold kickCopier
  split
  · exact rid
  split
  · exact rid
  split
  · next a rest urgent =>
    have listed : a ∈ s.copier.urgent := by rw [urgent]; exact List.mem_cons_self
    refine startCopy_rid ⟨rid.job, fun x later => rid.urgent x ?_, rid.copy⟩ (rid.urgent a listed)
    rw [urgent]
    exact List.mem_cons_of_mem _ later
  split
  · exact rid
  next v _ =>
  split
  · exact rid
  · next i job =>
    have other : v ≠ w := by
      rintro rfl
      cases rid.job.symm.trans job
    split
    · exact rid
    · exact startCopy_rid ⟨rid.job, rid.urgent, rid.copy⟩ other

theorem endDropped_rid {w : Fin 16} {s : State} (rid : s.copier.Rid w) : (endDropped s).copier.Rid w := by
  unfold endDropped
  split
  · exact rid
  split
  · exact rid
  split
  · exact rid
  refine kickCopier_rid ?_
  have ended (t : State) (copier : t.copier = s.copier) : (t.updCopier Copier.endCopy).copier.Rid w :=
    ⟨by rw [State.updCopier_copier, copier]; exact rid.job, by rw [State.updCopier_copier, copier]; exact rid.urgent,
      fun _ h => nomatch h⟩
  split
  · split
    · exact ended _ rfl
    · exact ended _ rfl
  · exact ended _ rfl

theorem dropMarks_rid (w : Fin 16) (s : State) : (dropMarks w s).copier.Rid w := by
  refine ⟨?_, fun a listed => ?_, fun y copy here => ?_⟩
  · rw [dropMarks_jobs]
    exact upd_same ..
  · rw [dropMarks_urgent] at listed
    exact of_decide_eq_true (List.mem_filter.mp listed).2
  · rw [dropMarks_copy] at copy
    obtain ⟨z, -, rfl⟩ := Option.map_eq_some_iff.mp copy
    split at here
    · next is => rw [if_pos is]
    · next other => exact absurd here other

theorem dropJobs_rid (w : Fin 16) (s : State) : (dropJobs w s).copier.Rid w := endDropped_rid (dropMarks_rid w s)

/-! ### Slots discarded while the window allocates nothing (R63) -/

theorem denies_retire {w : Fin 16} {i : Fin 4} {s : State} (none : s.allocatesNone w) : Denies w s (retire w i s) := by
  unfold retire
  split
  · split
    · have left := denies_updSlot w i Slot.leave s
      split
      · rw [allocate_idle (left.allocatesNone none)]
        exact left
      · exact left
    · exact .refl w s
  · exact .refl w s

/-- The roles of a window's slots after its FILLING and its SEALED slot are discarded. -/
def SlotUnit.emptied (u : SlotUnit) : Option (Fin 4) × Option (Fin 4) × Fin 4 × BitVec 32 :=
  (none, none, u.front, u.counter)

theorem SlotUnit.of_emptied {u u' : SlotUnit} (h : u'.roles = u.emptied) :
    u'.filling = none ∧ u'.sealed = none ∧ u'.front = u.front ∧ u'.counter = u.counter := by
  simpa [SlotUnit.roles, SlotUnit.emptied] using h

/-- A window has no FILLING slot or no SEALED one. -/
def State.oneOpen (s : State) (w : Fin 16) : Prop := ∀ u, s.slots[w] = some u → u.filling = none ∨ u.sealed = none

/-- The discard of the one slot that is FILLING or SEALED, in a window that is not LIVE. -/
theorem discardSlot_emptied {w : Fin 16} {i : Fin 4} {u : SlotUnit} {s : State} (idle : s.windows[w].state ≠ .live)
    (slots : s.slots[w] = some u) (filling : u.filling = none ∨ u.filling = some i)
    (sealed : u.sealed = none ∨ u.sealed = some i) :
    (discardSlot w i s).slots[w].map SlotUnit.roles = some u.emptied := by
  have emptied (source : Option (Fin 4)) : (u.discards i source).roles = u.emptied := by
    obtain ⟨front, counter, filling', sealed'⟩ := u.discards_rest i source
    have unfilled : (if u.filling = some i then none else u.filling) = none := by
      rcases filling with h | h <;> simp [h]
    have unsealed : (if u.sealed = some i then none else u.sealed) = none := by
      rcases sealed with h | h <;> simp [h]
    rw [SlotUnit.roles, SlotUnit.emptied, front, counter, filling', sealed', unfilled, unsealed]
  rw [discardSlot_eq slots]
  generalize (s.work w i).bind Work.source = source
  have direct : (s.withSlots w (u.discards i source)).slots[w].map SlotUnit.roles = some u.emptied := by
    rw [State.withSlots_slots, Option.map_some, emptied]
  cases source with
  | none => exact direct
  | some f => exact (denies_retire (s := s.withSlots w (u.discards i (some f))) (.inl idle)).roles.trans direct

theorem discardForHalt_emptied {w : Fin 16} {s : State} (idle : s.windows[w].state ≠ .live) (one : s.oneOpen w) :
    (discardForHalt w s).1.slots[w].map SlotUnit.roles = s.slots[w].map SlotUnit.emptied := by
  cases slots : s.slots[w] with
  | none =>
    unfold discardForHalt
    rw [slots]
    exact congrArg (Option.map SlotUnit.roles) slots
  | some u =>
    unfold discardForHalt
    rw [slots, Option.bind_some, Option.bind_some]
    cases filling : u.filling with
    | some i =>
      have unsealed := (one u slots).resolve_left (by rw [filling]; nofun)
      exact discardSlot_emptied idle slots (.inr filling) (.inl unsealed)
    | none =>
      cases sealed : u.sealed with
      | some i => exact discardSlot_emptied idle slots (.inl filling) (.inr sealed)
      | none =>
        show s.slots[w].map SlotUnit.roles = _
        rw [slots, Option.map_some, Option.map_some, SlotUnit.roles, SlotUnit.emptied, filling, sealed]

theorem shifts_discardForHalt (w : Fin 16) (s : State) : Shifts s (discardForHalt w s).1 := by
  unfold discardForHalt
  split
  · exact shifts_discardSlot ..
  · exact shifts_discardSlot ..
  · exact .refl s

theorem dropJobs_roles (v w : Fin 16) (s : State) :
    (dropJobs v s).slots[w].map SlotUnit.roles = s.slots[w].map SlotUnit.roles := by
  have blurred := congrArg (Option.map SlotUnit.roles) (dropJobs_blur v w s)
  rw [Option.map_map, Option.map_map] at blurred
  exact blurred

/-! ### The halt (R38) -/

/-- What a window's halt leaves. -/
structure Halts (w : Fin 16) (cause : HaltCause) (s t : State) : Prop where
  state   : t.windows[w].state = .halted
  cause   : t.windows[w].haltCause = some cause
  roles   : t.slots[w].map SlotUnit.roles = s.slots[w].map SlotUnit.emptied
  copier  : t.copier.Rid w
  commits : t.commits[w] = .reset
  waits   : s.oneWaiting → ∀ m e, t.current m = some e → e.deniableWrite w = false

theorem Entry.deniableWrite_stays {w : Fin 16} {s : State} {e e' : Entry} (idle : s.windows[w].state ≠ .live)
    (stays : e.Stays s e') (passes : e'.deniableWrite w = true) : e.deniableWrite w = true := by
  simp only [Entry.deniableWrite, Entry.isWriteOf, Bool.and_eq_true, decide_eq_true_eq] at passes ⊢
  obtain ⟨⟨window, write⟩, near⟩ := passes
  rw [stays.window] at window
  rw [stays.request] at write
  refine ⟨⟨window, write⟩, (stays.reach near).resolve_right ?_⟩
  rintro ⟨-, v, here, live⟩
  obtain rfl := Option.some.inj (window.symm.trans here)
  exact idle live

theorem haltWindow_halts {w : Fin 16} {cause : HaltCause} {s : State} (single : s.oneOpen w) :
    Halts w cause s (haltWindow w cause s) := by
  let halted := s.updWindow w (fun x => { x with state := .halted, haltCause := some cause })
  let discarded := (discardForHalt w halted).1
  let dropped := dropJobs w discarded
  let posted := post (.windowHalted w cause (discardForHalt w halted).2) dropped
  let uncommitted := discardAll w .halted posted
  have is : haltWindow w cause s = answerAll (Entry.deniableWrite w) .halted uncommitted := rfl
  have here : halted.windows[w] = { s.windows[w] with state := .halted, haltCause := some cause } := upd_same ..
  have idle : halted.windows[w].state ≠ .live := by rw [here]; nofun
  have windows : posted.windows = halted.windows :=
    ((shifts_dropJobs w discarded).windows).trans (shifts_discardForHalt w halted).windows
  have frame := discardAll_frame w .halted posted
  have windows' : uncommitted.windows[w] = halted.windows[w] := by
    rw [show uncommitted = _ from frame]
    exact congrArg (fun x : Vector Window 16 => x[w]) windows
  have idle' : uncommitted.windows[w].state ≠ .live := windows' ▸ idle
  have ends (one : s.oneWaiting) (m : Fin 16) (e : Entry)
      (is : (answerAll (Entry.deniableWrite w) .halted uncommitted).current m = some e) : e.deniableWrite w = false := by
    have marked : Works s halted := .updWindow s w _ (fun _ => rfl)
    have one' : uncommitted.oneWaiting := one.works ((marked.trans (works_discardForHalt w halted)).trans
      ((works_dropJobs w discarded).trans ((Works.post ..).trans (works_discardAll ..))))
    refine (answerAll_ends one' (fun _ h => h) (fun t m e e' follows current stays => ?_)).ends m (mem_masters m) e is
    exact Entry.deniableWrite_stays (by rw [follows.states]; exact idle') stays
  have denies := denies_answerAll (test := Entry.deniableWrite w) (reason := .halted) (.inl idle')
    (fun _ => Entry.window_of_deniableWrite)
  obtain ⟨n, window⟩ := denies.window
  have commits : uncommitted.commits[w] = .reset := by
    rw [show uncommitted = _ from frame]
    exact Vector.getElem_set_self ..
  rw [is]
  refine ⟨?_, ?_, ?_, ?_, ?_, ends⟩
  · rw [window, windows', here]
  · rw [window, windows', here]
  · refine denies.roles.trans ?_
    rw [show uncommitted = _ from frame]
    exact (dropJobs_roles w w discarded).trans (discardForHalt_emptied idle single)
  · rw [denies.copier, show uncommitted = _ from frame]
    exact dropJobs_rid w discarded
  · exact (denies.commits (by rw [commits]; rfl)).trans commits

end Sys2Proof.Machine
end


section
/-! SUPPORT. The fault of a producer write in a window that halts on it (R37, R38). -/

namespace Sys2Proof.Machine

/-- From `s` to `t` window `w` stayed in its state, and with at most one slot FILLING or SEALED. -/
structure Tallies (w : Fin 16) (s t : State) : Prop where
  state   : t.windows[w].state = s.windows[w].state
  oneOpen : s.oneOpen w → t.oneOpen w

namespace Tallies

theorem refl (w : Fin 16) (s : State) : Tallies w s s := ⟨rfl, id⟩

theorem trans {w : Fin 16} {s t u : State} (a : Tallies w s t) (b : Tallies w t u) : Tallies w s u :=
  ⟨b.state.trans a.state, fun h => b.oneOpen (a.oneOpen h)⟩

theorem of_slots {w : Fin 16} {s t : State} (state : t.windows[w].state = s.windows[w].state) (slots : t.slots = s.slots) :
    Tallies w s t := ⟨state, fun h u is => h u (slots ▸ is)⟩

theorem of_denies {w : Fin 16} {s t : State} (h : Denies w s t) : Tallies w s t := by
  refine ⟨h.state, fun one u is => ?_⟩
  obtain ⟨u₀, before, roles⟩ := h.unit is
  obtain ⟨filling, sealed, -⟩ := SlotUnit.of_roles roles
  rw [filling, sealed]
  exact one u₀ before

theorem allocate (w : Fin 16) (s : State) : Tallies w s (Machine.allocate w s) := by
  refine ⟨by rw [(shifts_allocate w s).windows], fun one u' is => ?_⟩
  cases slots : s.slots[w] with
  | none =>
    rw [allocate_idle (.inr (fun u is' => nomatch slots.symm.trans is'))] at is
    cases slots.symm.trans is
  | some u =>
    rcases allocate_cases slots with idle | ⟨d, i, x, n, v, -, -, -, unsealed, -, -, slots', opens⟩
    · rw [idle] at is
      exact one u' is
    · obtain rfl := Option.some.inj (slots'.symm.trans is)
      exact .inr (opens.sealed.trans unsealed)

theorem updSlot (w : Fin 16) (i : Fin 4) (f : Slot → Slot) (s : State) : Tallies w s (s.updSlot w i f) :=
  .of_denies (denies_updSlot w i f s)

theorem freeRetiring (w : Fin 16) (i : Fin 4) (s : State) : Tallies w s (Machine.freeRetiring w i s) := by
  unfold Machine.freeRetiring
  split
  · exact .refl w s
  split
  · exact (updSlot ..).trans (allocate ..)
  · exact .refl w s

theorem lowerRead (w : Fin 16) (q : Nat) (s : State) : Tallies w s (Machine.lowerRead w q s) := by
  unfold Machine.lowerRead
  extract_lets t
  have lowered : Tallies w s t := .of_slots rfl rfl
  split
  · split
    · exact lowered.trans (.of_denies (denies_releaseVisibility w t))
    · exact lowered
  · exact lowered

theorem countCompletion (w : Fin 16) (p : Piece) (s : State) : Tallies w s (Machine.countCompletion w p s) := by
  unfold Machine.countCompletion
  extract_lets t
  have counted : Tallies w s t := .of_slots
    (State.updWindow_state (f := fun x => { x with inFlight := x.inFlight - 1 }) (fun _ => rfl) s w) rfl
  split
  · exact counted.trans ((updSlot ..).trans (freeRetiring ..))
  · exact counted.trans (lowerRead ..)
  · exact counted

end Tallies

/-- A request whose last piece faulted has left IN FLIGHT. -/
theorem tallies_finishRequest {m : Fin 16} {e : Entry} {w : Fin 16} {s : State} (window : e.window = some w)
    (fault : e.anyFault = true) : Tallies w s (finishRequest m e s) := by
  rw [finishRequest_open window (fun h => by rw [fault] at h; exact nomatch h.2)]
  split <;> exact .of_slots rfl rfl

theorem Piece.complete_memfault (kind : Kind) (data : List Dword) (p : Piece) :
    p.complete kind .memfault data = { p with stage := .faulted } := by
  cases kind <;> rfl

/-- The report of a fault to a LIVE window that halts on faults. -/
theorem faultReport_halts {w : Fin 16} {d : Definition} {cause : HaltCause} {s : State} (single : s.oneOpen w)
    (running : s.link.part = .running) (live : s.windows[w].state = .live)
    (definition : s.definition w = some d) (halts : d.haltOnFault = true) :
    Halts w cause s (faultReport w cause s) := by
  unfold faultReport
  rw [if_pos ⟨running, live, by rw [definition]; exact halts⟩]
  exact haltWindow_halts single

/-- The fault of a piece of a producer write, in a LIVE window that halts on faults. -/
theorem pieceCompleted_halts {m : Fin 16} {e : Entry} {k : Nat} {p : Piece} {w : Fin 16} {d : Definition} {s : State}
    (one : s.oneWaiting) (single : s.oneOpen w) (running : s.link.part = .running) (window : e.window = some w)
    (piece : e.pieces[k]?.isSome = true) (fault : p.stage = .faulted) (write : e.request.kind = .write)
    (live : s.windows[w].state = .live) (definition : s.definition w = some d) (halts : d.haltOnFault = true) :
    ∃ t, t.oneWaiting ∧ Halts w .memfault t (pieceCompleted m e k p .memfault s) := by
  let counted := countCompletion w p (s.updEntry m e.id (Entry.withPiece k p))
  let posted := post (.memoryFault w m p.target.number e.request.kind) counted
  let finished := if (e.withPiece k p).allComplete = true then finishRequest m (e.withPiece k p) posted else posted
  have is : pieceCompleted m e k p .memfault s = faultReport w .memfault finished := by
    rw [pieceCompleted_eq window]
    exact if_pos ⟨rfl, write⟩
  have fault' := Entry.anyFault_withPiece piece fault
  have moved : Works s finished ∧ Tallies w s finished := by
    have first : Works s counted ∧ Tallies w s counted := by
      have placed : Works s (s.updEntry m e.id (Entry.withPiece k p)) :=
        .updEntry s m e.id _ (fun _ => rfl) (fun _ h => h)
      exact ⟨placed.trans (works_countCompletion ..),
        .trans (t := s.updEntry m e.id (Entry.withPiece k p)) (.of_slots rfl rfl) (.countCompletion ..)⟩
    have second : Works s posted ∧ Tallies w s posted :=
      ⟨first.1.trans (.post ..), first.2.trans (.of_slots rfl rfl)⟩
    unfold finished
    split
    · exact ⟨second.1.trans (works_finishRequest ..),
        second.2.trans (tallies_finishRequest (e := e.withPiece k p) window fault')⟩
    · exact second
  obtain ⟨works, tallies⟩ := moved
  rw [is]
  refine ⟨finished, one.works works, faultReport_halts (tallies.oneOpen single) ?_ (tallies.state.trans live) ?_ halts⟩
  · rw [works.link]
    exact running
  · exact (works.definition w).trans definition

end Sys2Proof.Machine

namespace Sys2Proof
open Machine

/-- Settles O28: the fault is reported once its piece and its request are counted, and each step of the halt is kept by
those after it. -/
theorem writeFaultHaltsWindow : Obligations.WriteFaultHaltsWindow := by
  intro tag data q m id k e p w d s one running place owner entry piece window write live definition halts single
  obtain rfl : e.id = id := by simpa using List.find?_some entry
  obtain ⟨u, one', h⟩ := pieceCompleted_halts (m := m) (s := releasePlace tag s)
    (p := p.complete e.request.kind .memfault data) one single running window (by rw [piece]; rfl)
    (by rw [Piece.complete_memfault]) write live definition halts
  refine ⟨_, (completePiece_eq place owner entry piece .memfault data).trans
    (congrArg Host.Outcome.next (testReset_pieceCompleted running)), h.state, h.cause, fun v slots => ?_, h.copier.job,
    h.copier.urgent, h.commits, fun m' e' current window' write' => ?_⟩
  · have roles := h.roles
    rw [slots] at roles
    obtain ⟨v₀, -, same⟩ := Option.map_eq_some_iff.mp roles.symm
    obtain ⟨filling, sealed, -⟩ := SlotUnit.of_emptied same.symm
    exact ⟨filling, sealed⟩
  · have fails := h.waits one' m' e' current
    simpa [Entry.deniableWrite, Entry.isWriteOf, window', write'] using fails

end Sys2Proof
end


section
/-! SUPPORT. The failure of a backfill (R80, R81): the report of the slot manager and the halt that follows it. -/

namespace Sys2Proof.Machine

theorem Tallies.retire (w : Fin 16) (i : Fin 4) (s : State) : Tallies w s (Machine.retire w i s) := by
  unfold Machine.retire
  split
  · split
    · split
      · exact (updSlot ..).trans (allocate ..)
      · exact .updSlot ..
    · exact .refl w s
  · exact .refl w s

/-- The discard of the one slot that is FILLING or SEALED, whatever its source is then allocated for. -/
theorem discardSlot_kept {w : Fin 16} {i : Fin 4} {u : SlotUnit} {s : State} (slots : s.slots[w] = some u)
    (filling : u.filling = none ∨ u.filling = some i) : (discardSlot w i s).oneOpen w ∧
      ∃ u', (discardSlot w i s).slots[w] = some u' ∧ u'.front = u.front ∧ u'.counter = u.counter := by
  rw [discardSlot_eq slots]
  generalize (s.work w i).bind Work.source = source
  obtain ⟨front, counter, filling', -⟩ := u.discards_rest i source
  have unfilled : (u.discards i source).filling = none := by
    rw [filling']
    rcases filling with h | h <;> simp [h]
  have slots' : (s.withSlots w (u.discards i source)).slots[w] = some (u.discards i source) := State.withSlots_slots ..
  have one : (s.withSlots w (u.discards i source)).oneOpen w :=
    fun v is => .inl (Option.some.inj (slots'.symm.trans is) ▸ unfilled)
  cases source with
  | none => exact ⟨one, _, slots', front, counter⟩
  | some f =>
    obtain ⟨u', is, front', -, counter', -⟩ := retire_kept (i := f) slots'
    exact ⟨(Tallies.retire ..).oneOpen one, u', is, front'.trans front, counter'.trans counter⟩

theorem startSlotTimers_idle {w : Fin 16} {s : State} (idle : s.windows[w].state ≠ .live) : startSlotTimers w s = s := by
  unfold startSlotTimers
  split
  · rfl
  · exact if_pos (.inl idle)

theorem endDropped_roles (w : Fin 16) (s : State) :
    (endDropped s).slots[w].map SlotUnit.roles = s.slots[w].map SlotUnit.roles := by
  obtain ⟨x, other⟩ := exists_ne w
  have blurred := congrArg (Option.map SlotUnit.roles) ((local_endDropped x s).slots w other.symm)
  rw [Option.map_map, Option.map_map] at blurred
  exact blurred

theorem Posts.pending {now : Micros} {n n' : NoticeUnit} (posts : Posts now n n') {x : Notice} (listed : x ∈ n.pending) :
    x ∈ n'.pending := by
  obtain ⟨bodies, rfl⟩ := posts
  induction bodies generalizing n with
  | nil => exact listed
  | cons b bodies ih =>
    refine ih (?_ : x ∈ (n.take b now).pending)
    rcases n.take_cases b now with same | queued | lost
    · rwa [same]
    · rw [queued]
      exact List.mem_append_left _ listed
    · rwa [lost]

theorem lowerSlotInFlight_isSealed {w : Fin 16} {i : Fin 4} {u : SlotUnit} {s : State} (slots : s.slots[w] = some u)
    (none : s.allocatesNone w) :
    ((lowerSlotInFlight w i s).slot w i).any Slot.isSealed = (s.slot w i).any Slot.isSealed := by
  rw [State.slot_of slots]
  cases slot : u.slots[i] with
  | none =>
    have absent : (s.updSlot w i (fun x => { x with inFlight := x.inFlight - 1 })).slot w i = .none := by
      rw [State.updSlot_onSlots, State.onSlots_eq slots, State.slot_of (State.withSlots_slots ..), SlotUnit.onSlot_get,
        if_pos rfl, slot]
      rfl
    rw [lowerSlotInFlight, freeRetiring, absent]
    exact congrArg (Option.any Slot.isSealed) absent
  | some x =>
    rw [lowerSlotInFlight_eq slots slot (.inr (none.imp_right (fun h => h u slots))),
      State.slot_of (State.withSlots_slots ..), SlotUnit.onSlot_get, if_pos rfl, slot]
    show (Slot.landed x).isSealed = x.isSealed
    by_cases freed : x.state = .retiring ∧ x.inFlight ≤ 1 ∧ x.waiting = 0
    · rw [Slot.landed, if_pos freed, Slot.isSealed, Slot.isSealed, freed.1]
    · rw [Slot.landed, if_neg freed]
      rfl

/-- What the failure of a backfill leaves, in a LIVE window that halts on faults. -/
structure FailsBackfill (y : Copy) (s : State) (u : SlotUnit) (t : State) : Prop where
  state  : t.windows[y.window].state = .halted
  cause  : t.windows[y.window].haltCause = some .backfillFailed
  roles  : t.slots[y.window].map SlotUnit.roles = some u.emptied
  copier : t.copier.Rid y.window
  posts  : Posts s.timebase (s.notice.take (.backfillFailed y.window y.block ((s.slot y.window y.dest).any Slot.isSealed))
    s.timebase) t.notice

theorem backfillFailure_fails {y : Copy} {d : Definition} {u : SlotUnit} {s : State} (running : s.link.part = .running)
    (definition : s.definition y.window = some d) (halts : d.haltOnFault = true)
    (live : s.windows[y.window].state = .live) (slots : s.slots[y.window] = some u)
    (dest : (u.filling = some y.dest ∧ u.sealed = none) ∨ (u.filling = none ∧ u.sealed = some y.dest)) :
    FailsBackfill y s u (backfillFailure y s) := by
  let w := y.window
  let lost := (s.slot w y.dest).any Slot.isSealed
  let posted := post (.backfillFailed w y.block lost) (dropMarks w s)
  let answered := answerAll (Entry.deniableOn w y.dest) .backfillFailed posted
  let discarded := discardSlot w y.dest answered
  let halted := faultReport w .backfillFailed discarded
  have is : backfillFailure y s = endDropped (startSlotTimers w (allocate w halted)) := rfl
  have none : posted.allocatesNone w := .inr (fun v unit => by
    obtain rfl := Option.some.inj (slots.symm.trans unit)
    rcases dest with h | h
    · rw [h.1]; exact .inl nofun
    · rw [h.2]; exact .inr nofun)
  have denies : Denies w posted answered := denies_answerAll none (fun _ => Entry.window_of_deniableOn)
  have works : Works posted discarded := (works_answerAll ..).trans (works_discardSlot ..)
  obtain ⟨v, unit, roles⟩ : ∃ v, answered.slots[w] = some v ∧ v.roles = u.roles := by
    have same := denies.roles
    rw [show posted.slots[w] = some u from slots] at same
    exact Option.map_eq_some_iff.mp same
  obtain ⟨filling, sealed, front, counter⟩ := SlotUnit.of_roles roles
  obtain ⟨one, v', unit', front', counter'⟩ := discardSlot_kept (i := y.dest) unit
    (by rw [filling]; exact dest.elim (fun h => .inr h.1) (fun h => .inl h.1))
  have state : discarded.windows[w].state = .live := by
    rw [(shifts_discardSlot ..).windows]
    exact denies.state.trans live
  have running' : discarded.link.part = .running := (congrArg Link.part works.link).trans running
  have report : Halts w .backfillFailed discarded halted := faultReport_halts one running' state
    ((works.definition w).trans definition) halts
  have idle : halted.windows[w].state ≠ .live := by rw [report.state]; nofun
  have last : backfillFailure y s = endDropped halted := by
    rw [is, allocate_idle (.inl idle), startSlotTimers_idle idle]
  have all : Works posted (endDropped halted) := works.trans ((works_faultReport ..).trans (works_endDropped _))
  have windows : (endDropped halted).windows = halted.windows := by rw [endDropped_frame]
  rw [last]
  refine ⟨?_, ?_, ?_, endDropped_rid report.copier, all.notice⟩
  · rw [windows]; exact report.state
  · rw [windows]; exact report.cause
  · rw [endDropped_roles, report.roles, unit', Option.map_some, SlotUnit.emptied, SlotUnit.emptied, front', counter',
      front, counter]

end Sys2Proof.Machine

namespace Sys2Proof
open Machine

/-- Settles O31: the burst's slot is still FILLING or SEALED, so that nothing is allocated before its backfill fails. -/
theorem retryFaultFailsBackfill : Obligations.RetryFaultFailsBackfill := by
  intro tag data q j y b d u s running place owner copy undropped unfailed retry buffer definition halts live slots dest
  let r := releasePlace tag s
  let lowered := lowerSlotInFlight y.window y.dest r
  let cleared := lowered.updCopier (fun c => c.clearBuffer j)
  have runs : exec (.copierBurstCompletion tag .memfault data) s = .next (backfillFailure y cleared) := by
    rw [burstCompletion_runs running place owner copy buffer .memfault data]
    refine congrArg Host.Outcome.next ?_
    unfold burstCompleted
    rw [if_neg (by rw [undropped, unfailed]; exact fun h => h.elim nofun nofun)]
    show burstFault y cleared = _
    rw [burstFault, retry]
  have none : r.allocatesNone y.window := .inr (fun v unit => by
    obtain rfl := Option.some.inj (slots.symm.trans unit)
    rcases dest with h | h
    · rw [h.1]; exact .inl nofun
    · rw [h.2]; exact .inr nofun)
  have lowers : Denies y.window r lowered := by
    have updated := denies_updSlot y.window y.dest (fun x => { x with inFlight := x.inFlight - 1 }) r
    exact updated.trans (denies_freeRetiring (updated.allocatesNone none))
  have shifts : Shifts r lowered := (shifts_updSlot ..).trans (shifts_freeRetiring ..)
  obtain ⟨v, unit, roles⟩ : ∃ v, cleared.slots[y.window] = some v ∧ v.roles = u.roles := by
    have same := lowers.roles
    rw [show r.slots[y.window] = some u from slots] at same
    exact Option.map_eq_some_iff.mp same
  obtain ⟨filling, sealed, front, counter⟩ := SlotUnit.of_roles roles
  have h := backfillFailure_fails (y := y) (s := cleared) ((congrArg Link.part shifts.link).trans running)
    ((shifts.definition _).trans definition) halts (lowers.state.trans live) unit (by rw [filling, sealed]; exact dest)
  have result := h.roles
  obtain ⟨u', slots', emptied⟩ := Option.map_eq_some_iff.mp result
  obtain ⟨filling', sealed', front', counter'⟩ := SlotUnit.of_emptied emptied
  refine ⟨_, u', runs, h.state, h.cause, slots', filling', sealed', front'.trans front, counter'.trans counter, h.copier.job,
    h.copier.urgent, h.copier.copy, fun active mask room => h.posts.pending ?_⟩
  have lost : (cleared.slot y.window y.dest).any Slot.isSealed = (s.slot y.window y.dest).any (fun x =>
      match x.state with
      | .sealed _ _ => true
      | _ => false) := lowerSlotInFlight_isSealed (s := r) (i := y.dest) slots none
  have notice : cleared.notice = s.notice := shifts.notice
  have timebase : cleared.timebase = s.timebase := shifts.timebase
  rw [lost, notice, timebase, (postingTaken s.notice (.backfillFailed ..) s.timebase).2.2.1 active mask room]
  exact List.mem_append_right _ (List.mem_singleton.mpr rfl)

end Sys2Proof
end


section
/-! SUPPORT. The drain of a window: the steps of its take (R40) and its completion (R41). -/

namespace Sys2Proof.Machine

theorem isDrained_iff {s : State} {w : Fin 16} : isDrained s w = true ↔ s.nothingLeft w := by
  simp [isDrained, State.nothingLeft, copierWorksFor, and_assoc]
  intros
  cases s.copier.copy <;> simp

/-- The completion of a drain, nothing of the window being left. -/
theorem testDrain_drained {w : Fin 16} {s : State} (running : s.link.part = .running)
    (draining : s.windows[w].state = .draining) (left : s.nothingLeft w) : testDrain w s =
      { s.emptied w with notice := s.notice.take (.windowDrained w) s.timebase } := by
  obtain ⟨-, -, -, -, urgent, -⟩ := id left
  have calm : s.copier.urgent.filter (fun u => decide (u.window ≠ w)) = s.copier.urgent :=
    List.filter_eq_self.mpr (fun u listed => decide_eq_true (urgent u listed))
  rw [testDrain, if_pos ⟨running, draining, isDrained_iff.mpr left⟩]
  unfold completeDrain removeWorkingState
  extract_lets t
  have emptied : becomeDefined w ((removeJob w t).updCopier (fun c =>
      { c with urgent := c.urgent.filter (fun u => decide (u.window ≠ w)) })) = s.emptied w := by
    unfold becomeDefined State.emptied removeJob
    simp only [State.updCopier, State.updWindow, t, calm]
    rfl
  rw [emptied]
  rfl

theorem testDrain_waits {w : Fin 16} {s : State}
    (waits : s.link.part = .resetting ∨ s.windows[w].state ≠ .draining ∨ ¬ s.nothingLeft w) : testDrain w s = s := by
  refine if_neg ?_
  rintro ⟨running, draining, left⟩
  rcases waits with resetting | other | work
  · cases running.symm.trans resetting
  · exact other draining
  · exact work (isDrained_iff.mp left)

/-- The window `w` of a state as its drain begins (R40). -/
def State.drains (s : State) (w : Fin 16) : State :=
  s.updWindow w (fun x => { x with state := .draining, haltCause := none })

theorem State.drains_window (s : State) (w : Fin 16) :
    (s.drains w).windows[w] = { s.windows[w] with state := .draining, haltCause := none } := upd_same ..

theorem discardQueue_empty {w : Fin 16} {reason : Reason} {s : State} (empty : s.commits[w].queue = []) :
    discardQueue w reason s = s := by
  have same : ({ s.commits[w] with queue := [] } : CommitState) = s.commits[w] := by rw [← empty]
  unfold discardQueue
  rw [empty]
  show s.updCommits w (fun c => { c with queue := [] }) = s
  have commits : s.commits.set w { s.commits[w] with queue := [] } = s.commits := by
    rw [same, Vector.set_same]
  exact congrArg (fun c => { s with commits := c }) commits

/-- The take of DRAIN WINDOW with no commit queued, no write in a slot wait, and no job to drop. -/
theorem drainWindow_quiet {w : Fin 16} {s : State} (empty : s.commits[w].queue = []) (nobody : s.noneInSlotWait w)
    (jobless : s.commits[w].current ≠ none ∨ ∀ u, s.slots[w] = some u → u.filling = none) :
    drainWindow w s = testDrain w (s.drains w) := by
  have kept : drainDrop w (s.drains w) = (s.drains w, false) := by
    refine if_neg ?_
    rintro ⟨idle, filled⟩
    rcases jobless with busy | unfilled
    · exact busy idle
    · obtain ⟨i, filling⟩ := Option.ne_none_iff_exists'.mp filled
      obtain ⟨u, slots, filling⟩ := Option.bind_eq_some_iff.mp filling
      rw [unfilled u slots] at filling
      cases filling
  have answered : answerAll (Entry.closedByDrain w false) .closing (s.drains w) = s.drains w := by
    refine forMasters_idle (fun m => ?_)
    split
    · rfl
    · next e current =>
      refine if_neg (fun closes => ?_)
      simp only [Entry.closedByDrain, Entry.isWriteOf, Bool.false_and, Bool.or_false, Bool.and_eq_true,
        decide_eq_true_eq] at closes
      obtain ⟨⟨⟨window, -⟩, -⟩, waits⟩ := closes
      rw [nobody m e current window] at waits
      cases waits
  unfold drainWindow
  rw [show s.updWindow w (fun x => { x with state := .draining, haltCause := none }) = s.drains w from rfl]
  dsimp only
  rw [discardQueue_empty (s := s.drains w) empty, kept]
  dsimp only
  rw [answered]

theorem State.nothingLeft_drains {s : State} {w : Fin 16} : (s.drains w).nothingLeft w ↔ s.nothingLeft w := by
  unfold State.nothingLeft
  rw [s.drains_window w]
  exact Iff.rfl

theorem State.emptied_drains (s : State) (w : Fin 16) : (s.drains w).emptied w = s.emptied w := by
  unfold State.emptied
  rw [s.drains_window w]
  have windows (x : Window) : (s.drains w).windows.set w x = s.windows.set w x := Vector.set_set ..
  rw [windows]
  rfl

/-! ### The take of DRAIN WINDOW in general -/

theorem discardQueue_frame (w : Fin 16) (reason : Reason) (s : State) : discardQueue w reason s = { s with
    responses := (discardQueue w reason s).responses, notice := (discardQueue w reason s).notice
    commits := s.commits.set w { s.commits[w] with queue := [] } } := by
  unfold discardQueue
  extract_lets commits t
  obtain ⟨frame, -⟩ := discardCommits_frame w reason commits t
  rw [frame]
  rfl

theorem drainDrop_frame (w : Fin 16) (s : State) : (drainDrop w s).1 = { s with
    slots := (drainDrop w s).1.slots, copier := (drainDrop w s).1.copier } := by
  unfold drainDrop
  split
  · exact dropJobs_frame w s
  · rfl

theorem works_drainDrop (w : Fin 16) (s : State) : Works s (drainDrop w s).1 := by
  unfold drainDrop
  split
  · exact works_dropJobs w s
  · exact .refl s

/-- A write of window `w` in a slot wait within reach. -/
def Entry.slotWaiting (w : Fin 16) (e : Entry) : Bool := e.isWriteOf w && e.reachable && e.inSlotWait

theorem Entry.slotWaiting_stays {w : Fin 16} {s : State} {e e' : Entry} (idle : s.windows[w].state ≠ .live)
    (stays : e.Stays s e') (passes : e'.slotWaiting w = true) : e.slotWaiting w = true := by
  simp only [Entry.slotWaiting, Bool.and_eq_true] at passes ⊢
  obtain ⟨near, waits⟩ := passes
  have deniable : e.deniableWrite w = true := Entry.deniableWrite_stays idle stays (by
    simpa only [Entry.deniableWrite, Bool.and_eq_true] using near)
  exact ⟨by simpa only [Entry.deniableWrite, Bool.and_eq_true] using deniable, (stays.slot waits).1⟩

theorem Entry.closedByDrain_of_slotWaiting {w : Fin 16} (dropped : Bool) {e : Entry} (h : e.slotWaiting w = true) :
    e.closedByDrain w dropped = true := by
  simp only [Entry.slotWaiting, Bool.and_eq_true] at h
  simp [Entry.closedByDrain, h]

/-- A window whose drain has begun, or ended with its take. -/
structure Draining (w : Fin 16) (t : State) : Prop where
  state : t.windows[w].state = .draining ∨ t.windows[w].state = .defined
  queue : t.commits[w].queue = []
  waits : ∀ m e, t.current m = some e → e.slotWaiting w = false

theorem testDrain_draining {w : Fin 16} {s : State} (h : Draining w s) : Draining w (testDrain w s) := by
  unfold testDrain
  split
  · have defined : (completeDrain w s).windows[w].state = .defined := congrArg Window.state (upd_same ..)
    exact ⟨.inr defined, h.queue, h.waits⟩
  · exact h

theorem drainWindow_draining {w : Fin 16} {s : State} (one : s.oneWaiting) : Draining w (drainWindow w s) := by
  let unqueued := discardQueue w .closing (s.drains w)
  let dropped := (drainDrop w unqueued).1
  let test := Entry.closedByDrain w (drainDrop w unqueued).2
  let answered := answerAll test .closing dropped
  have is : drainWindow w s = testDrain w answered := rfl
  have frame : dropped = _ := drainDrop_frame w unqueued
  have frame' : unqueued = _ := discardQueue_frame w .closing (s.drains w)
  have state : dropped.windows[w].state = .draining := by
    rw [frame, frame', s.drains_window w]
  have idle : dropped.windows[w].state ≠ .live := by rw [state]; nofun
  have queue : dropped.commits[w].queue = [] := by
    rw [frame, frame']
    exact congrArg CommitState.queue (Vector.getElem_set_self ..)
  have marked : Works s (s.drains w) := .updWindow s w _ (fun _ => rfl)
  have works : Works s dropped := (marked.trans (works_discardQueue ..)).trans (works_drainDrop ..)
  have denies : Denies w dropped answered := denies_answerAll (.inl idle) (fun _ => Entry.window_of_closedByDrain)
  have ends : Ends (Entry.slotWaiting w) dropped masters answered :=
    answerAll_ends (one.works works) (fun _ => Entry.closedByDrain_of_slotWaiting _) (fun t m e e' follows _ stays =>
      Entry.slotWaiting_stays (by rw [follows.states]; exact idle) stays)
  rw [is]
  exact testDrain_draining ⟨.inl (denies.state.trans state), denies.queue.trans queue, fun m => ends.ends m (mem_masters m)⟩

end Sys2Proof.Machine

namespace Sys2Proof
open Machine

/-- The command that drains a LIVE or HALTED window. -/
theorem drainWindow_runs {w : Fin 16} {s : State} (ready : s.linkReady)
    (state : s.windows[w].state = .live ∨ s.windows[w].state = .halted) :
    exec (.drainWindow [byteOf w]) s = .next { drainWindow w s with link := s.link.recorded 0x05 .accepted 0 } := by
  refine congrArg Host.Outcome.next (takeWrite_ok ready ?_ ?_)
  · rw [ownerDrainWindow, frameOf, withWindow_byteOf, if_pos state]
  · exact (works_drainWindow w s).link

/-- Settles O45: a drain completes exactly when nothing of its window is left, and its take answers the writes in a slot
wait. -/
theorem drainCompletes : Obligations.DrainCompletes := by
  intro w s
  refine ⟨fun running draining left => congrArg Host.Outcome.next (testDrain_drained running draining left),
    fun waits => congrArg Host.Outcome.next (testDrain_waits ?_), fun ready state => ⟨fun unfilled nobody left => ?_,
      fun empty nobody busy => ?_, fun one => ?_⟩⟩
  · rcases waits with h | h | h | h | h | h | h | h | h
    · exact .inl h
    · exact .inr (.inl h)
    all_goals
      refine .inr (.inr (fun left => ?_))
      obtain ⟨flying, waiting, current, queue, urgent, candidate, copy⟩ := left
    · exact h flying
    · exact h waiting
    · exact h current
    · exact h queue
    · obtain ⟨u, listed, here⟩ := h
      exact urgent u listed here
    · rw [candidate] at h
      cases h
    · obtain ⟨y, is, here⟩ := h
      exact copy y is here
  · have is := testDrain_drained (s := s.drains w) ready.1 (by rw [s.drains_window w]) (State.nothingLeft_drains.mpr left)
    have quiet := (drainWindow_quiet left.2.2.2.1 nobody (.inr unfilled)).trans is
    rw [drainWindow_runs ready state, quiet, s.emptied_drains w]
    rfl
  · have left : ¬ (s.drains w).nothingLeft w := fun left => by
      obtain ⟨flying, waiting, current, -⟩ := State.nothingLeft_drains.mp left
      rcases busy with h | ⟨-, h | h⟩
      · exact h current
      · exact h flying
      · exact h waiting
    have quiet := (drainWindow_quiet empty nobody (busy.imp id And.left)).trans (testDrain_waits (.inr (.inr left)))
    rw [drainWindow_runs ready state, quiet]
    rfl
  · have h := drainWindow_draining (w := w) one
    have runs := drainWindow_runs ready state
    generalize drainWindow w s = t at h runs
    refine ⟨_, runs, h.state, h.queue, fun m e current window write near => ?_⟩
    have fails := h.waits m e current
    simpa [Entry.slotWaiting, Entry.isWriteOf, window, write, near] using fails

end Sys2Proof
end


section
/-! SUPPORT. The take of SOFT RESET (R163): what its discards and answers leave of a RESETTING part. -/

namespace Sys2Proof.Machine

/-! ### The slot manager while the part is RESETTING (R88) -/

theorem mapWaitingToSlot_copier {m w : Fin 16} {i : Fin 4} {s : State} (resetting : s.link.part = .resetting) :
    (mapWaitingToSlot m w i s).copier = s.copier := by
  unfold mapWaitingToSlot
  split
  · next e d k _ _ _ =>
    extract_lets pieces t
    have captured : (captureSlots w pieces (stopTimer m t)).copier = s.copier ∧
        (captureSlots w pieces (stopTimer m t)).link = s.link := by
      rw [captureSlots_writes, captureSlots_same]
      exact ⟨rfl, rfl⟩
    unfold listFirstNeedsCopy
    split
    · exact captured.1
    · rw [addUrgent_resetting _ ((congrArg Link.part captured.2).trans resetting)]
      exact captured.1
  · rfl

theorem mapSlotWaits_copier {w : Fin 16} {i : Fin 4} {s : State} (resetting : s.link.part = .resetting) :
    (mapSlotWaits w i s).copier = s.copier := by
  unfold mapSlotWaits
  refine (forMasters_keeps (fun t => t.link.part = .resetting ∧ t.copier = s.copier) (fun m t h => ?_)
    ⟨resetting, rfl⟩).2
  obtain ⟨resetting', copier⟩ := h
  split
  · exact ⟨resetting', copier⟩
  split
  · exact ⟨(congrArg Link.part (works_mapWaitingToSlot ..).link).trans resetting',
      (mapWaitingToSlot_copier resetting').trans copier⟩
  · exact ⟨resetting', copier⟩

theorem allocate_copier {w : Fin 16} {s : State} (resetting : s.link.part = .resetting) :
    (allocate w s).copier = s.copier := by
  unfold allocate
  split
  · rfl
  split
  · split
    · rfl
    split
    · rfl
    · next d u _ _ _ _ i _ =>
      unfold allocateSlot
      extract_lets t t'
      have opened : t'.copier = s.copier ∧ t'.link = s.link := by
        unfold t'
        split
        · rw [createJob_resetting w i (s := t.updSlot w u.front (fun x => { x with hold := true })) resetting]
          exact ⟨rfl, rfl⟩
        · exact ⟨rfl, rfl⟩
      exact (mapSlotWaits_copier ((congrArg Link.part opened.2).trans resetting)).trans opened.1
  · rfl

/-! ### Discards and answers -/

/-- From `s` to `t` waits ended and nothing began: no window changed but in its waiting count, no commit unit that is
empty, no view, no copier of a RESETTING part, and no stall timer started. -/
structure Quiets (s t : State) : Prop where
  windows : ∀ w : Fin 16, ∃ n, n ≤ s.windows[w].waiting ∧ t.windows[w] = { s.windows[w] with waiting := n }
  commits : (∀ w : Fin 16, s.commits[w] = .reset) → ∀ w : Fin 16, t.commits[w] = .reset
  views   : t.views = s.views
  link    : t.link = s.link
  copier  : s.link.part = .resetting → t.copier = s.copier
  stops   : Stops s t

namespace Quiets

theorem of_same {s t : State} (windows : t.windows = s.windows) (commits : t.commits = s.commits)
    (views : t.views = s.views) (link : t.link = s.link) (copier : t.copier = s.copier) (stops : Stops s t) : Quiets s t :=
  ⟨fun w => ⟨_, Nat.le_refl _, by rw [windows]⟩, fun reset w => by rw [commits]; exact reset w, views, link,
    fun _ => copier, stops⟩

theorem refl (s : State) : Quiets s s := of_same rfl rfl rfl rfl rfl (.refl s)

theorem trans {s t u : State} (a : Quiets s t) (b : Quiets t u) : Quiets s u where
  windows w := by
    obtain ⟨n, fewer, is⟩ := a.windows w
    obtain ⟨k, fewer', is'⟩ := b.windows w
    rw [is] at fewer' is'
    exact ⟨k, Nat.le_trans fewer' fewer, is'⟩
  commits reset := b.commits (a.commits reset)
  views := b.views.trans a.views
  link := b.link.trans a.link
  copier resetting := (b.copier (by rw [a.link]; exact resetting)).trans (a.copier resetting)
  stops := a.stops.trans b.stops

theorem foldl {α : Type} {f : State → α → State} (h : ∀ t x, Quiets t (f t x)) (l : List α) (s : State) :
    Quiets s (l.foldl f s) := by
  induction l generalizing s with
  | nil => exact refl s
  | cons x l ih => exact (h s x).trans (ih _)

theorem state {s t : State} (h : Quiets s t) (w : Fin 16) : t.windows[w].state = s.windows[w].state := by
  obtain ⟨n, -, is⟩ := h.windows w
  rw [is]

theorem definition {s t : State} (h : Quiets s t) (w : Fin 16) : t.definition w = s.definition w := by
  obtain ⟨n, -, is⟩ := h.windows w
  rw [State.definition, is]
  rfl

end Quiets

theorem quiets_allocate (w : Fin 16) (s : State) : Quiets s (allocate w s) := by
  have shifts := shifts_allocate w s
  exact ⟨fun v => ⟨_, Nat.le_refl _, by rw [shifts.windows]⟩, fun reset v => by rw [shifts.commits]; exact reset v,
    by rw [shifts], shifts.link, allocate_copier, stops_allocate w s⟩

theorem quiets_updSlot (w : Fin 16) (i : Fin 4) (f : Slot → Slot) (s : State) : Quiets s (s.updSlot w i f) :=
  .of_same rfl rfl rfl rfl rfl (.of_same rfl)

theorem quiets_freeRetiring (w : Fin 16) (i : Fin 4) (s : State) : Quiets s (freeRetiring w i s) := by
  unfold freeRetiring
  split
  · exact .refl s
  split
  · exact (quiets_updSlot ..).trans (quiets_allocate ..)
  · exact .refl s

theorem quiets_releaseVisibility (w : Fin 16) (s : State) : Quiets s (releaseVisibility w s) := by
  have stops := stops_releaseVisibility w s
  rw [releaseVisibility_frame] at stops ⊢
  exact .of_same rfl rfl rfl rfl rfl stops

theorem quiets_forgetPiece (w : Fin 16) (p : Piece) (s : State) : Quiets s (forgetPiece w p s) := by
  unfold forgetPiece
  split
  · exact .refl s
  split
  · exact .refl s
  · exact (quiets_updSlot ..).trans (quiets_freeRetiring ..)
  · exact .refl s
  · next q _ =>
    unfold lowerRead
    extract_lets t
    have lowered : Quiets s t := .of_same rfl rfl rfl rfl rfl (.of_same rfl)
    split
    · split
      · exact lowered.trans (quiets_releaseVisibility w t)
      · exact lowered
    · exact lowered

theorem quiets_lowerWaiting (w : Fin 16) (s : State) : Quiets s (lowerWaiting w s) := by
  refine ⟨fun v => ?_, fun reset => reset, rfl, rfl, fun _ => rfl, .of_same rfl⟩
  by_cases here : w = v
  · subst here
    exact ⟨s.windows[w].waiting - 1, Nat.sub_le .., upd_same ..⟩
  · exact ⟨s.windows[v].waiting, Nat.le_refl _, upd_ne _ _ here⟩

theorem quiets_lowerDrain (w : Fin 16) (s : State) : Quiets s (lowerDrain w s) := by
  refine ⟨fun v => ⟨_, Nat.le_refl _, rfl⟩, fun reset v => ?_, rfl, rfl, fun _ => rfl, .of_same rfl⟩
  by_cases here : w = v
  · subst here
    exact (upd_same ..).trans (by rw [reset w]; rfl)
  · exact (upd_ne _ _ here).trans (reset v)

theorem quiets_post (b : NoticeBody) (s : State) : Quiets s (post b s) := .of_same rfl rfl rfl rfl rfl (.of_same rfl)

theorem quiets_answerWaiting (m : Fin 16) (reason : Reason) (s : State) : Quiets s (answerWaiting m reason s) := by
  unfold answerWaiting
  split
  · exact .refl s
  next e _ =>
  extract_lets t
  have stopped : Quiets s t := .of_same rfl rfl rfl rfl rfl (.stop (m := m) rfl)
  split
  · exact stopped
  next w _ =>
  extract_lets lowered drained posted
  have drains : Quiets lowered drained := by
    unfold drained
    split
    · exact quiets_lowerDrain ..
    · exact .refl lowered
  exact (stopped.trans (quiets_lowerWaiting w t)).trans ((drains.trans (quiets_post ..)).trans
    (.foldl (fun t p => quiets_forgetPiece w p t) _ _))

theorem quiets_answerAll (test : Entry → Bool) (reason : Reason) (s : State) : Quiets s (answerAll test reason s) := by
  unfold answerAll
  refine .foldl (fun t m => ?_) _ _
  dsimp only
  split
  · exact .refl t
  split
  · exact quiets_answerWaiting ..
  · exact .refl t

theorem quiets_resetWaits (slotted : Bool) (w : Fin 16) (s : State) : Quiets s (resetWaits slotted w s) := by
  unfold resetWaits
  split
  · exact quiets_answerAll ..
  · exact .refl s

theorem quiets_forWindows {f : Fin 16 → State → State} (h : ∀ w t, Quiets t (f w t)) (s : State) :
    Quiets s (forWindows f s) := .foldl (fun t w => h w t) _ _

theorem quiets_discardAll (w : Fin 16) (reason : Reason) (s : State) : Quiets s (discardAll w reason s) := by
  have stops := (follows_discardAll w reason s).stops
  rw [discardAll_frame] at stops ⊢
  refine ⟨fun v => ⟨_, Nat.le_refl _, rfl⟩, fun reset v => ?_, rfl, rfl, fun _ => rfl, stops⟩
  by_cases here : w = v
  · subst here
    exact Vector.getElem_set_self ..
  · exact (upd_ne s.commits (fun _ => CommitState.reset) here).trans (reset v)

/-! ### All windows in order -/

/-- What each window's turn brings about, and no later turn undoes, holds of every window after all turns. -/
theorem forWindows_all {Q : State → Prop} {P : Fin 16 → State → Prop} {f : Fin 16 → State → State} {s : State}
    (start : Q s) (keeps : ∀ w t, Q t → Q (f w t)) (own : ∀ w t, Q t → P w (f w t))
    (stays : ∀ v w t, Q t → P w t → P w (f v t)) : Q (forWindows f s) ∧ ∀ w, P w (forWindows f s) := by
  have run (l : List (Fin 16)) (t : State) (h : Q t) :
      Q (l.foldl (fun t w => f w t) t) ∧ ∀ w, w ∈ l ∨ P w t → P w (l.foldl (fun t w => f w t) t) := by
    induction l generalizing t with
    | nil => exact ⟨h, fun w turned => turned.resolve_left List.not_mem_nil⟩
    | cons v l ih =>
      obtain ⟨kept, all⟩ := ih (f v t) (keeps v t h)
      refine ⟨kept, fun w turned => all w ?_⟩
      rcases turned with listed | held
      · rcases List.mem_cons.mp listed with rfl | later
        · exact .inr (own w t h)
        · exact .inl later
      · exact .inr (stays v w t h held)
  obtain ⟨kept, all⟩ := run windowNumbers s start
  exact ⟨kept, fun w => all w (.inl (mem_windowNumbers w))⟩

theorem discardAll_reset (w : Fin 16) (reason : Reason) (s : State) : (discardAll w reason s).commits[w] = .reset := by
  rw [discardAll_frame]
  exact Vector.getElem_set_self ..

theorem forWindows_discardAll (reason : Reason) (s : State) (w : Fin 16) :
    (forWindows (fun w t => discardAll w reason t) s).commits[w] = .reset := by
  refine (forWindows_all (Q := fun _ => True) (P := fun w t => t.commits[w] = .reset) trivial (fun _ _ _ => trivial)
    (fun w t _ => discardAll_reset w reason t) (fun v w t _ reset => ?_)).2 w
  by_cases here : w = v
  · subst here
    exact discardAll_reset ..
  · exact ((local_discardAll v reason t).commits w here).trans reset

end Sys2Proof.Machine
end


section
/-! SUPPORT. The state that the take of SOFT RESET leaves before it tests for its clearing (R163, R164). -/

namespace Sys2Proof.Machine

/-! ### The steps of the take -/

/-- The part is RESETTING, and every commit has been discarded. -/
def State.uncommitted (s : State) : State :=
  forWindows (fun w t => discardAll w .reset t) (s.updLink (fun l => { l with part := .resetting }))

/-- Every request waiting within reach has been answered too. -/
def State.unwaited (s : State) : State :=
  forWindows (resetWaits false) (forWindows (resetWaits true) (answerAll Entry.inFenceWait .reset s.uncommitted))

/-- The copier has no job and the timers have stopped too. -/
def State.suspended (s : State) : State :=
  stopIdleTimers ((forWindows dropJobs s.unwaited).updNotice (fun n => { n with holdoff := .stopped }))

theorem takeSoftReset_suspended (s : State) : takeSoftReset s = testReset s.suspended := rfl

theorem foldl_dropJobs_frame (l : List (Fin 16)) (s : State) : l.foldl (fun t w => dropJobs w t) s = { s with
    slots := (l.foldl (fun t w => dropJobs w t) s).slots, copier := (l.foldl (fun t w => dropJobs w t) s).copier } := by
  induction l generalizing s with
  | nil => rfl
  | cons w l ih =>
    rw [List.foldl_cons, ih, dropJobs_frame]

theorem dropAll_frame (s : State) : forWindows dropJobs s = { s with
    slots := (forWindows dropJobs s).slots, copier := (forWindows dropJobs s).copier } := foldl_dropJobs_frame ..

theorem dropAll_idle {s : State} (resetting : s.link.part = .resetting) (idle : s.copier.copy = none) :
    (forWindows dropJobs s).copier.copy = none := by
  refine (forWindows_all (Q := fun t => t.link.part = .resetting ∧ t.copier.copy = none) (P := fun _ _ => True)
    ⟨resetting, idle⟩ (fun w t h => ⟨?_, ?_⟩) (fun _ _ _ => trivial) (fun _ _ _ _ _ => trivial)).1.2
  · exact (congrArg Link.part (works_dropJobs w t).link).trans h.1
  · refine Option.eq_none_iff_forall_ne_some.mpr (fun y copy => ?_)
    obtain ⟨z, before, -⟩ := (dropJobs_resetting h.1).2.2 y copy
    cases h.2.symm.trans before

/-! ### What is left of the part -/

/-- What a part suspended by a soft reset is. -/
structure Suspends (s t : State) : Prop where
  windows : ∀ w : Fin 16, ∃ n, n ≤ s.windows[w].waiting ∧ t.windows[w] = { s.windows[w] with waiting := n }
  commits : ∀ w : Fin 16, t.commits[w] = .reset
  views   : ∀ w c, t.view w c = (s.view w c).map (fun v => { v with timer := none })
  link    : t.link = { s.link with part := .resetting }
  urgent  : t.copier.urgent = []
  jobs    : ∀ w : Fin 16, t.copier.jobs[w] = none
  dropped : ∀ y, t.copier.copy = some y → y.dropped = true
  idle    : s.copier.copy = none → t.copier.copy = none
  notice  : ∃ n, Posts s.timebase s.notice n ∧ t.notice = { n with holdoff := .stopped }
  stops   : Stops s t
  intake  : t.intake = s.intake
  bound   : t.consumers = s.consumers
  time    : t.timebase = s.timebase
  places  : t.places = s.places

theorem quiets_unwaited (s : State) : Quiets s.uncommitted s.unwaited :=
  (quiets_answerAll ..).trans ((quiets_forWindows (quiets_resetWaits true) _).trans
    (quiets_forWindows (quiets_resetWaits false) _))

theorem works_unwaited (s : State) : Works (s.updLink (fun l => { l with part := .resetting })) s.unwaited :=
  (Works.forWindows _ (fun w t => works_discardAll w .reset t) _).trans ((works_answerAll ..).trans
    ((Works.forWindows _ (works_resetWaits true) _).trans (.forWindows _ (works_resetWaits false) _)))

theorem view_stopIdleTimers (s : State) (w : Fin 16) (c : Fin 8) :
    (stopIdleTimers s).view w c = (s.view w c).map (fun v => { v with timer := none }) := by
  simp [stopIdleTimers, State.view]

/-- What dropping every window's jobs leaves alone. -/
structure SameButCopies (s t : State) : Prop where
  windows   : t.windows = s.windows
  commits   : t.commits = s.commits
  views     : t.views = s.views
  link      : t.link = s.link
  timers    : t.stallTimers = s.stallTimers
  responses : t.responses = s.responses
  notice    : t.notice = s.notice
  intake    : t.intake = s.intake
  bound     : t.consumers = s.consumers
  time      : t.timebase = s.timebase
  places    : t.places = s.places

theorem dropAll_same (s : State) : SameButCopies s (forWindows dropJobs s) := by
  rw [dropAll_frame]
  exact ⟨rfl, rfl, rfl, rfl, rfl, rfl, rfl, rfl, rfl, rfl, rfl⟩

theorem suspends (s : State) : Suspends s s.suspended := by
  have quiets : Quiets (s.updLink (fun l => { l with part := .resetting })) s.unwaited :=
    (quiets_forWindows (fun w t => quiets_discardAll w .reset t) _).trans (quiets_unwaited s)
  have works := works_unwaited s
  have resetting : s.unwaited.link.part = .resetting := congrArg Link.part works.link
  have same := dropAll_same s.unwaited
  have stopped : (forWindows dropJobs s.unwaited).copierStopped := stopped_dropAll resetting
  have idle (none : s.copier.copy = none) : (forWindows dropJobs s.unwaited).copier.copy = .none :=
    dropAll_idle resetting ((congrArg Copier.copy (quiets.copier rfl)).trans none)
  have commits : ∀ w : Fin 16, s.unwaited.commits[w] = .reset :=
    (quiets_unwaited s).commits (forWindows_discardAll .reset _)
  unfold State.suspended
  generalize forWindows dropJobs s.unwaited = dropped at same stopped idle ⊢
  obtain ⟨urgent, jobs, copies⟩ := stopped ((congrArg Link.part same.link).trans resetting)
  refine ⟨fun w => ?_, fun w => ?_, fun w c => ?_, same.link.trans works.link, urgent, jobs, copies, idle,
    ⟨s.unwaited.notice, works.notice, congrArg (fun n : NoticeUnit => { n with holdoff := .stopped }) same.notice⟩,
    ⟨(quiets.stops.trans (.of_same same.timers)).timer⟩, same.intake.trans works.intake, same.bound.trans works.consumers,
    same.time.trans works.timebase, same.places.trans works.places⟩
  · obtain ⟨n, fewer, is⟩ := quiets.windows w
    exact ⟨n, fewer, (congrArg (fun x : Vector Window 16 => x[w]) same.windows).trans is⟩
  · exact (congrArg (fun x : Vector CommitState 16 => x[w]) same.commits).trans (commits w)
  · rw [view_stopIdleTimers]
    have view : (dropped.updNotice (fun n => { n with holdoff := .stopped })).view w c = s.view w c := by
      show dropped.views[w][c] = s.views[w][c]
      rw [same.views, quiets.views]
      rfl
    rw [view]

/-! ### The requests that waited -/

/-- A write in a slot wait is unmapped (R65). -/
def State.unmapped (s : State) : Prop := ∀ m e, s.current m = some e → e.inSlotWait = true → e.pieces = []

/-- No request of window `w` waits within reach. -/
def State.unwaitedAt (w : Fin 16) (s : State) : Prop := ∀ m e, s.current m = some e → e.deniable w = false

theorem State.unmapped.follows {s t : State} (h : s.unmapped) (follows : Follows s t) : t.unmapped := by
  intro m e' current waits
  obtain ⟨e, before, stays⟩ := follows.stays m e' current
  obtain ⟨waits', pieces⟩ := stays.slot waits
  exact pieces (h m e before waits')

theorem Entry.deniable_iff {w : Fin 16} {e : Entry} : e.deniable w = true ↔ e.window = some w ∧ e.reachable = true := by
  simp [Entry.deniable]

theorem State.unmapped.deniable {s : State} (h : s.unmapped) {w m : Fin 16} {e e' : Entry} (current : s.current m = some e)
    (stays : e.Stays s e') (passes : e'.deniable w = true) : e.deniable w = true := by
  obtain ⟨window, near⟩ := Entry.deniable_iff.mp passes
  refine Entry.deniable_iff.mpr ⟨stays.window.symm.trans window, ?_⟩
  rcases stays.reach near with near' | ⟨waits, -⟩
  · exact near'
  · rw [Entry.reachable, h m e current waits]
    rfl

theorem State.unwaitedAt.follows {w : Fin 16} {s t : State} (h : s.unwaitedAt w) (unmapped : s.unmapped)
    (follows : Follows s t) : t.unwaitedAt w := by
  intro m e' current
  obtain ⟨e, before, stays⟩ := follows.stays m e' current
  refine Bool.eq_false_iff.mpr (fun passes => ?_)
  have passed := unmapped.deniable before stays passes
  rw [h m e before] at passed
  cases passed

/-- Answers, whatever requests they are for. -/
theorem follows_answerAll {test : Entry → Bool} {reason : Reason} {s : State} (one : s.oneWaiting) :
    Follows s (answerAll test reason s) :=
  (answerAll_ends (goal := fun _ => false) one (fun _ h => nomatch h) (fun _ _ _ _ _ _ _ h => nomatch h)).follows

theorem follows_resetWaits {slotted : Bool} {w : Fin 16} {s : State} (one : s.oneWaiting) :
    Follows s (resetWaits slotted w s) := by
  unfold resetWaits
  split
  · exact follows_answerAll one
  · exact .refl s

theorem resetWaits_unwaited {slotted : Bool} {w : Fin 16} {d : Definition} {s : State} (one : s.oneWaiting)
    (unmapped : s.unmapped) (working : s.windows[w].state.working = true) (definition : s.definition w = some d)
    (kind : d.isSlotted = slotted) : (resetWaits slotted w s).unwaitedAt w := by
  have kind' : (s.definition w).any (fun d => decide (d.isSlotted = slotted)) = true := by
    rw [definition]
    exact decide_eq_true kind
  unfold resetWaits
  rw [if_pos ⟨working, kind'⟩]
  have ends := answerAll_ends (test := Entry.deniable w) (reason := .reset) one (fun _ h => h)
    (fun t m e e' follows current stays => (unmapped.follows follows).deniable current stays)
  exact fun m => ends.ends m (mem_masters m)

/-- What the answers of one kind of window leave. -/
structure AnswersAll (s t : State) : Prop where
  one     : t.oneWaiting
  follows : Follows s t
  quiets  : Quiets s t

theorem AnswersAll.trans {s t u : State} (a : AnswersAll s t) (b : AnswersAll t u) : AnswersAll s u :=
  ⟨b.one, a.follows.trans b.follows, a.quiets.trans b.quiets⟩

theorem forWindows_resetWaits {slotted : Bool} {s : State} (one : s.oneWaiting) (unmapped : s.unmapped) :
    AnswersAll s (forWindows (resetWaits slotted) s) ∧ ∀ (w : Fin 16) d, s.windows[w].state.working = true →
      s.definition w = some d → d.isSlotted = slotted → (forWindows (resetWaits slotted) s).unwaitedAt w := by
  have turn (w : Fin 16) (t : State) (h : AnswersAll s t) : AnswersAll t (resetWaits slotted w t) :=
    ⟨h.one.works (works_resetWaits ..), follows_resetWaits h.one, quiets_resetWaits ..⟩
  obtain ⟨all, each⟩ := forWindows_all (Q := AnswersAll s) (P := fun w t => ∀ d, s.windows[w].state.working = true →
      s.definition w = some d → d.isSlotted = slotted → t.unwaitedAt w) ⟨one, .refl s, .refl s⟩
    (fun w t h => h.trans (turn w t h))
    (fun w t h d working definition kind => resetWaits_unwaited h.one (unmapped.follows h.follows)
      (by rw [h.quiets.state]; exact working) ((h.quiets.definition w).trans definition) kind)
    (fun v w t h held d working definition kind =>
      (held d working definition kind).follows (unmapped.follows h.follows) (turn v t h).follows)
  exact ⟨all, fun w d => each w d⟩

theorem follows_stopIdleTimers (f : NoticeUnit → NoticeUnit) (s : State) :
    Follows s (stopIdleTimers (s.updNotice f)) := .of_same (fun _ => rfl) rfl rfl

/-- A soft reset answers every request of a window with working state that waits within reach. -/
theorem suspended_unwaited {s : State} (one : s.oneWaiting) (unmapped : s.unmapped)
    (defined : ∀ w : Fin 16, s.windows[w].state.working = true → (s.definition w).isSome = true) :
    Follows s s.suspended ∧ ∀ w : Fin 16, s.windows[w].state.working = true → s.suspended.unwaitedAt w := by
  let r := s.updLink (fun l => { l with part := .resetting })
  let unfenced := answerAll Entry.inFenceWait .reset s.uncommitted
  have discarded : AnswersAll r s.uncommitted :=
    ⟨State.oneWaiting.works (s := r) one (.forWindows _ (fun w t => works_discardAll w .reset t) _),
      .foldl one (fun t w => works_discardAll w .reset t) (fun t w _ => follows_discardAll w .reset t),
      quiets_forWindows (fun w t => quiets_discardAll w .reset t) _⟩
  have answered : AnswersAll r unfenced := discarded.trans
    ⟨discarded.one.works (works_answerAll ..), follows_answerAll discarded.one, quiets_answerAll ..⟩
  have unmapped' : unfenced.unmapped := State.unmapped.follows (s := r) (fun m e current => unmapped m e current) answered.follows
  obtain ⟨slotted, slotted'⟩ := forWindows_resetWaits (slotted := true) answered.one unmapped'
  have unmapped'' := unmapped'.follows slotted.follows
  obtain ⟨rolling, rolling'⟩ := forWindows_resetWaits (slotted := false) slotted.one unmapped''
  have before := answered.trans slotted
  have same := dropAll_same s.unwaited
  have dropped : Follows s.unwaited (forWindows dropJobs s.unwaited) :=
    .of_same (fun w => by rw [same.windows]) same.responses same.timers
  have last : Follows s.unwaited s.suspended := dropped.trans (follows_stopIdleTimers ..)
  refine ⟨.trans (t := r) (.of_same (fun _ => rfl) rfl rfl) ((before.trans rolling).follows.trans last),
    fun w working => ?_⟩
  obtain ⟨d, definition⟩ := Option.isSome_iff_exists.mp (defined w working)
  refine State.unwaitedAt.follows ?_ (unmapped''.follows rolling.follows) last
  cases kind : d.isSlotted with
  | true =>
    exact (slotted' w d (by rw [answered.quiets.state]; exact working) ((answered.quiets.definition w).trans definition)
      kind).follows unmapped'' rolling.follows
  | false =>
    exact rolling' w d (by rw [before.quiets.state]; exact working) ((before.quiets.definition w).trans definition) kind

end Sys2Proof.Machine
end


section
/-! SUPPORT. The clearing of a soft reset (R164, R165). -/

namespace Sys2Proof.Machine

/-! ### What the clearing makes of each block -/

/-- The notice unit after the clearing (R149). -/
theorem NoticeUnit.clearing_eq (n : NoticeUnit) : n.clearing = { n with
    ring := if n.ring = .faulted then .active else n.ring
    write := 0, consumed := 0, writtenBack := 0, sequence := 0, lost := 0, pending := [], indexError := false
    owed := decide (n.ring ≠ .unset), attn := false } := by
  obtain ⟨ring, _, _, _, _, _, _, _, _, _, _, _, _, _, _⟩ := n
  cases ring <;> rfl

/-- Postings change nothing of a notice unit but what is pending and lost. -/
theorem Posts.frame {now : Micros} {n n' : NoticeUnit} (posts : Posts now n n') :
    n' = { n with pending := n'.pending, lost := n'.lost } := by
  obtain ⟨bodies, rfl⟩ := posts
  induction bodies generalizing n with
  | nil => rfl
  | cons b bodies ih =>
    rw [List.foldl_cons, ih (n := n.take b now)]
    rcases n.take_cases b now with is | is | is <;> rw [is]

/-- A window as the clearing leaves it. -/
structure ClearedWindow (w : Fin 16) (s t : State) : Prop where
  window : t.windows[w] = { state := .defined, definition := s.windows[w].definition, inFlight := 0, waiting := 0
                            haltCause := none }
  slots  : t.slots[w] = none
  rolls  : t.rolls[w] = none
  views  : ∀ c, t.view w c = none
  job    : t.copier.jobs[w] = none

/-- What the clearing of windows leaves of the part. -/
structure Clears (s t : State) : Prop where
  frame   : t = { s with windows := t.windows, slots := t.slots, rolls := t.rolls, views := t.views, copier := t.copier }
  windows : ∀ w : Fin 16, t.windows[w] = s.windows[w] ∨
    (s.windows[w].state.working = true ∧ ClearedWindow w s t)
  urgent  : s.copier.urgent = [] → t.copier.urgent = []
  jobs    : ∀ w : Fin 16, s.copier.jobs[w] = none → t.copier.jobs[w] = none

theorem clearWindow_eq {w : Fin 16} {s : State} (working : s.windows[w].state.working = true) : clearWindow w s = { s with
    windows := upd s.windows w (fun x => { x with state := .defined, inFlight := 0, waiting := 0, haltCause := none })
    slots := upd s.slots w (fun _ => none), rolls := upd s.rolls w (fun _ => none)
    views := upd s.views w (fun _ => Vector.replicate 8 none)
    copier := { s.copier with
      jobs := upd s.copier.jobs w (fun _ => none)
      urgent := s.copier.urgent.filter (fun u => decide (u.window ≠ w)) } } := if_pos working

theorem clearWindow_idle {w : Fin 16} {s : State} (idle : s.windows[w].state.working = false) : clearWindow w s = s :=
  if_neg (by rw [idle]; exact Bool.false_ne_true)

theorem clearWindow_clears {w : Fin 16} {s : State} (working : s.windows[w].state.working = true) :
    ClearedWindow w s (clearWindow w s) := by
  rw [clearWindow_eq working]
  refine ⟨upd_same .., upd_same .., upd_same .., fun c => ?_, upd_same ..⟩
  show (upd s.views w (fun _ => Vector.replicate 8 none))[w][c] = none
  rw [upd_same]
  simp

/-- A window's turn leaves another window as it is. -/
theorem clearWindow_other {w v : Fin 16} {s t : State} (other : w ≠ v) (cleared : ClearedWindow w s t) :
    ClearedWindow w s (clearWindow v t) := by
  cases working : t.windows[v].state.working with
  | false => rwa [clearWindow_idle working]
  | true =>
    rw [clearWindow_eq working]
    have apart : v ≠ w := Ne.symm other
    refine ⟨(upd_ne _ _ apart).trans cleared.window, (upd_ne _ _ apart).trans cleared.slots,
      (upd_ne _ _ apart).trans cleared.rolls, fun c => ?_, (upd_ne _ _ apart).trans cleared.job⟩
    refine Eq.trans ?_ (cleared.views c)
    show (upd t.views v (fun _ => Vector.replicate 8 none))[w][c] = t.views[w][c]
    rw [upd_ne _ _ apart]

theorem ClearedWindow.idle {w : Fin 16} {s t : State} (cleared : ClearedWindow w s t) :
    t.windows[w].state.working = false := by
  rw [cleared.window]
  rfl

theorem ClearedWindow.stays {w v : Fin 16} {s t : State} (cleared : ClearedWindow w s t) :
    ClearedWindow w s (clearWindow v t) := by
  by_cases here : w = v
  · subst here
    rwa [clearWindow_idle cleared.idle]
  · exact clearWindow_other here cleared

theorem ClearedWindow.of_same {w : Fin 16} {s s' t : State} (cleared : ClearedWindow w s' t)
    (same : s'.windows[w].definition = s.windows[w].definition) : ClearedWindow w s t :=
  ⟨by rw [cleared.window, same], cleared.slots, cleared.rolls, cleared.views, cleared.job⟩

theorem clears_turn {v : Fin 16} {s t : State} (h : Clears s t) : Clears s (clearWindow v t) := by
  cases working : t.windows[v].state.working with
  | false => rwa [clearWindow_idle working]
  | true =>
    have turn := clearWindow_clears working
    have is := clearWindow_eq working
    refine ⟨?_, fun w => ?_, fun empty => ?_, fun w none => ?_⟩
    · rw [is, h.frame]
    · by_cases here : w = v
      · subst here
        have same := (h.windows w).resolve_right (fun cleared => by rw [cleared.2.idle] at working; cases working)
        exact .inr ⟨same ▸ working, turn.of_same (by rw [same])⟩
      · rcases h.windows w with same | cleared
        · refine .inl (Eq.trans ?_ same)
          rw [is]
          exact upd_ne _ _ (Ne.symm here)
        · exact .inr ⟨cleared.1, cleared.2.stays⟩
    · rw [is]
      show t.copier.urgent.filter _ = []
      rw [h.urgent empty]
      rfl
    · rw [is]
      show (upd t.copier.jobs v (fun _ => .none))[w] = .none
      rw [upd_get]
      split
      · rfl
      · exact h.jobs w none

/-- The clearing of all windows. -/
theorem clearAll (s : State) : Clears s (forWindows clearWindow s) ∧ ∀ w : Fin 16,
    (s.windows[w].state.working = true → ClearedWindow w s (forWindows clearWindow s)) ∧
    (s.windows[w].state.working = false → (forWindows clearWindow s).windows[w] = s.windows[w]) := by
  have start : Clears s s := ⟨rfl, fun _ => .inl rfl, id, fun _ => id⟩
  have own (w : Fin 16) (t : State) (h : Clears s t) (working : s.windows[w].state.working = true) :
      ClearedWindow w s (clearWindow w t) := by
    rcases h.windows w with same | ⟨-, cleared⟩
    · exact (clearWindow_clears (by rw [same]; exact working)).of_same (by rw [same])
    · exact cleared.stays
  obtain ⟨clears, all⟩ := forWindows_all (Q := Clears s)
    (P := fun w t => s.windows[w].state.working = true → ClearedWindow w s t) start (fun w t h => clears_turn h) own
    (fun v w t h held working => (held working).stays)
  refine ⟨clears, fun w => ⟨all w, fun idle => (clears.windows w).resolve_right (fun h => ?_)⟩⟩
  rw [h.1] at idle
  cases idle

/-! ### The clearing -/

/-- The clearing of a part, its windows cleared as `t` (R165). -/
theorem softClear_eq (s : State) : softClear s = { forWindows clearWindow s with
    copier := { (forWindows clearWindow s).copier with pointer := 15 }
    notice := (forWindows clearWindow s).notice.clearing.take .resetDone (forWindows clearWindow s).timebase
    link := { (forWindows clearWindow s).link with part := .running } } := by
  unfold softClear
  generalize forWindows clearWindow s = t
  rfl

/-- What the clearing of a soft reset leaves. -/
structure SoftClears (s t : State) : Prop where
  cleared   : s.cleared t
  link      : t.link = { s.link with part := .running }
  idle      : ∀ w : Fin 16, s.windows[w].state.working = false → t.windows[w] = s.windows[w]
  responses : t.responses = s.responses
  timers    : t.stallTimers = s.stallTimers
  commits   : t.commits = s.commits
  urgent    : s.copier.urgent = [] → t.copier.urgent = []
  jobs      : ∀ w : Fin 16, s.copier.jobs[w] = none → t.copier.jobs[w] = none

theorem softClear_clears (s : State) : SoftClears s (softClear s) := by
  obtain ⟨clears, all⟩ := clearAll s
  rw [softClear_eq]
  have frame := clears.frame
  generalize forWindows clearWindow s = t at clears all frame
  have notice : t.notice = s.notice := by rw [frame]
  have timebase : t.timebase = s.timebase := by rw [frame]
  refine ⟨⟨rfl, fun w working => ?_, ?_, ?_, ?_, timebase, ?_⟩, ?_, fun w => (all w).2, ?_, ?_, ?_, clears.urgent, clears.jobs⟩
  · have h := (all w).1 working
    exact ⟨h.window, h.slots, h.rolls, h.views, h.job⟩
  · show t.notice.clearing.take .resetDone t.timebase = _
    rw [notice, timebase, NoticeUnit.clearing_eq]
  all_goals rw [frame]

theorem resetReady_iff {s : State} : resetReady s = true ↔ (∀ w : Fin 16, s.windows[w].state.working = true →
    s.windows[w].inFlight = 0 ∧ s.windows[w].waiting = 0) ∧ s.copier.copy = none ∧ s.notice.inFlight = none := by
  simp only [resetReady, Bool.and_eq_true, List.all_eq_true, Bool.or_eq_true, Bool.not_eq_true', decide_eq_true_eq,
    and_assoc]
  refine and_congr_left' ⟨fun h w working => (h w (mem_windowNumbers w)).resolve_left (by rw [working]; nofun),
    fun h w _ => ?_⟩
  cases working : s.windows[w].state.working with
  | false => exact .inl rfl
  | true => exact .inr (h w working)

theorem testReset_clears {s : State} (resetting : s.link.part = .resetting) (ready : resetReady s = true) :
    testReset s = softClear s := if_pos ⟨resetting, ready⟩

end Sys2Proof.Machine

namespace Sys2Proof
open Machine

theorem softReset_runs {s : State} (ready : s.linkReady) : exec (.softReset []) s =
    .next { takeSoftReset s with link := (takeSoftReset s).link.recorded 0x0F .accepted 0 } := by
  refine congrArg Host.Outcome.next ?_
  have answer : frameAnswer true (fun s => .ok (takeSoftReset s)) s = .ok (takeSoftReset s) := by
    rw [frameAnswer, if_neg (by decide), if_neg (by rw [ready.1]; decide)]
  show takeWrite codeSoftReset true (fun s => .ok (takeSoftReset s)) s = _
  unfold takeWrite
  rw [ready.2, answer]
  rfl

/-- Settles O46: the take leaves a part suspended, its windows' requests answered, and clears it where nothing is left. -/
theorem softResetRunsToClearing : Obligations.SoftResetRunsToClearing := by
  refine ⟨fun w s ready one working flying defined unmapped => ?_, fun s waits => ?_, fun s resetting idle quiet empty => ?_,
    fun s ready idle quiet empty => ?_⟩
  · have h := suspends s
    obtain ⟨follows, unwaited⟩ := suspended_unwaited one unmapped defined
    have unready : resetReady s.suspended = false := by
      refine Bool.eq_false_iff.mpr (fun ready => flying ?_)
      obtain ⟨n, -, window⟩ := h.windows w
      have drained := ((resetReady_iff.mp ready).1 w (by rw [window]; exact working)).1
      rwa [window] at drained
    have runs := softReset_runs ready
    rw [takeSoftReset_suspended, testReset_idle (.inr unready)] at runs
    generalize s.suspended = t at h follows unwaited runs
    refine ⟨_, runs, ?_, fun v => ⟨?_, h.commits v, h.jobs v⟩, h.urgent, h.dropped, ?_, h.views, fun m e v current window working => ?_,
      fun m e v current window working near => ?_, fun m => (h.stops.timer m).symm⟩
    · show t.link.recorded 0x0F .accepted 0 = _
      rw [h.link]
      rfl
    · obtain ⟨n, -, window⟩ := h.windows v
      show t.windows[v].state = _
      rw [window]
    · obtain ⟨n, -, notice⟩ := h.notice
      show t.notice.holdoff = _
      rw [notice]
    · have fails := unwaited v working m e current
      simpa [Entry.deniable, window] using fails
    · cases after : t.current m with
      | none => exact follows.ended m e current after
      | some e' =>
        obtain ⟨x, before, stays⟩ := follows.stays m e' after
        obtain rfl := Option.some.inj (current.symm.trans before)
        have fails := unwaited v working m e' after
        rw [Entry.deniable_iff.mpr ⟨stays.window.trans window, stays.kept near⟩] at fails
        cases fails
  · refine congrArg Host.Outcome.next (testReset_idle ?_)
    rcases waits with running | copying | writing | ⟨w, working, busy⟩
    · exact .inl running
    all_goals refine .inr (Bool.eq_false_iff.mpr (fun ready => ?_))
    all_goals obtain ⟨empty, idle, quiet⟩ := resetReady_iff.mp ready
    · exact copying idle
    · exact writing quiet
    · exact busy.elim (fun h => h (empty w working).1) (fun h => h (empty w working).2)
  · have h := softClear_clears s
    refine ⟨_, congrArg Host.Outcome.next (testReset_clears resetting (resetReady_iff.mpr ⟨empty, idle, quiet⟩)), h.link, h.cleared,
      h.idle, h.responses⟩
  · have h := suspends s
    obtain ⟨n, posts, notice⟩ := h.notice
    have ready' : resetReady s.suspended = true := by
      refine resetReady_iff.mpr ⟨fun w working => ?_, h.idle idle, ?_⟩
      · obtain ⟨k, fewer, window⟩ := h.windows w
        rw [window] at working ⊢
        obtain ⟨flying, waiting⟩ := empty w working
        exact ⟨flying, Nat.le_zero.mp (waiting ▸ fewer)⟩
      · rw [notice, posts.frame]
        exact quiet
    have runs := softReset_runs ready
    rw [takeSoftReset_suspended, testReset_clears (congrArg Link.part h.link) ready'] at runs
    have c := softClear_clears s.suspended
    generalize softClear s.suspended = t at c runs
    generalize s.suspended = u at h c notice
    obtain ⟨pointer, windows, notice', intake, bound, time, places⟩ := c.cleared
    have state (w : Fin 16) : u.windows[w].state = s.windows[w].state := by
      obtain ⟨k, -, window⟩ := h.windows w
      rw [window]
    have definition (w : Fin 16) : u.windows[w].definition = s.windows[w].definition := by
      obtain ⟨k, -, window⟩ := h.windows w
      rw [window]
    refine ⟨_, runs, ?_, ⟨pointer, fun w working => ?_, ?_, intake.trans h.intake, bound.trans h.bound, time.trans h.time,
      places.trans h.places⟩, c.urgent h.urgent, fun w => ⟨?_, c.jobs w (h.jobs w)⟩, fun w resting => ?_, fun m => ?_⟩
    · show t.link.recorded 0x0F .accepted 0 = _
      rw [c.link, h.link]
      obtain ⟨part, _⟩ := ready
      exact congrArg (fun x => Link.recorded { s.link with part := x } 0x0F .accepted 0) part.symm
    · have cleared := windows w (by rw [state]; exact working)
      rw [definition] at cleared
      exact cleared
    · show t.notice = _
      rw [notice', notice, h.time, posts.frame]
    · show t.commits[w] = _
      rw [c.commits]
      exact h.commits w
    · have same := c.idle w (by rw [state]; exact resting)
      exact ⟨(congrArg Window.state same).trans (state w), (congrArg Window.definition same).trans (definition w)⟩
    · show t.stallTimers[m] = none ∨ t.stallTimers[m] = s.stallTimers[m]
      rw [c.timers]
      exact (h.stops.timer m).symm

end Sys2Proof
end


section
/-! SUPPORT. The end of a copy (R78): what the copier's next choice and the writes released leave of the slot copied into. -/

namespace Sys2Proof.Machine

/-! ### The copier's next choice (R76) -/

theorem State.slot_updSlot (s : State) (v w : Fin 16) (i j : Fin 4) (f : Slot → Slot) :
    (s.updSlot v i f).slot w j = if w = v ∧ j = i then (s.slot w j).map f else s.slot w j := by
  rw [State.updSlot_onSlots]
  by_cases here : w = v
  · subst here
    cases slots : s.slots[w] with
    | none =>
      have absent : (s.onSlots w (fun u => u.onSlot i f)).slots[w] = none := by rw [State.onSlots_get, slots]; rfl
      simp [State.slot, slots, absent]
    | some u =>
      rw [State.onSlots_eq slots, State.slot_of (State.withSlots_slots ..), State.slot_of slots, SlotUnit.onSlot_get]
      simp only [true_and]
  · rw [if_neg (fun h => here h.1)]
    have same : (s.onSlots v (fun u => u.onSlot i f)).slots[w] = s.slots[w] := upd_ne s.slots _ (Ne.symm here)
    simp only [State.slot, same]

/-- What the copier chooses, if anything: a block listed as urgent, or a block still NEEDS_COPY. -/
theorem kickCopier_starts (s : State) : kickCopier s = s ∨ ∃ (a : Urgent) (c : Copier → Copier),
    kickCopier s = startCopy a.window a.slot a.block (s.updCopier c) ∧
    (∀ x ∈ (c s.copier).urgent, x ∈ s.copier.urgent) ∧
    (a ∈ s.copier.urgent ∨ s.blockState a.window a.slot a.block = some .needsCopy) := by
  unfold kickCopier
  split
  · exact .inl rfl
  split
  · exact .inl rfl
  split
  · next a rest urgent =>
    have listed : a ∈ s.copier.urgent := by rw [urgent]; exact List.mem_cons_self
    refine .inr ⟨a, _, rfl, fun x later => ?_, .inl listed⟩
    rw [urgent]
    exact List.mem_cons_of_mem _ later
  split
  · exact .inl rfl
  next v found =>
  split
  · exact .inl rfl
  next i job =>
  split
  · exact .inl rfl
  next k work =>
  refine .inr ⟨⟨v, i, k.nextBlock⟩, _, rfl, fun x later => later, .inr ?_⟩
  have candidate : k.map.any BlockState.isNeedsCopy = true := by
    have chosen := List.find?_some found
    rw [isCandidate, job] at chosen
    simp only [work] at chosen
    exact chosen
  have inside : k.nextBlock < k.map.length := List.findIdx_lt_length_of_exists (List.any_eq_true.mp candidate)
  have needs : k.map[k.nextBlock].isNeedsCopy = true := List.findIdx_getElem (w := inside)
  rw [State.blockState, work, Option.bind_some, List.getElem?_eq_getElem inside]
  exact congrArg some (of_decide_eq_true needs)

/-- The start of a copy marks its block COPYING, at most. -/
theorem startCopy_slot (v w : Fin 16) (i j : Fin 4) (b : Nat) (s : State) :
    (startCopy v i b s).copier.urgent = s.copier.urgent ∧ ((startCopy v i b s).slot w j = s.slot w j ∨
      w = v ∧ j = i ∧ (startCopy v i b s).slot w j =
        (s.slot w j).map (Slot.updWork (fun k => { k with map := k.map.set b .copying }))) := by
  unfold startCopy
  split
  · exact ⟨rfl, .inl rfl⟩
  · refine ⟨rfl, ?_⟩
    have is := s.slot_updSlot v w i j (Slot.updWork (fun k => { k with map := k.map.set b .copying }))
    by_cases here : w = v ∧ j = i
    · rw [if_pos here] at is
      exact .inr ⟨here.1, here.2, is⟩
    · rw [if_neg here] at is
      exact .inl is

theorem State.blockState_of_slot {s : State} {w : Fin 16} {i : Fin 4} {x : Slot} {k : Work} (slot : s.slot w i = some x)
    (work : x.work = some k) (b : Nat) : s.blockState w i b = k.map[b]? := by
  rw [State.blockState, State.work, slot, Option.bind_some, work, Option.bind_some]

/-! ### A block that has been copied -/

/-- Block `b` of the FILLING slot `i` is COPIED, `n` blocks of the slot being WRITTEN, and no entry asks for its copy. -/
structure Copied (w : Fin 16) (i : Fin 4) (b n : Nat) (s : State) : Prop where
  slot   : ∃ x k, s.slot w i = some x ∧ x.state = .filling k ∧ k.map[b]? = some .copied ∧ k.written = n
  urgent : ∀ a ∈ s.copier.urgent, a ≠ ⟨w, i, b⟩

namespace Copied

variable {w : Fin 16} {i : Fin 4} {b n : Nat} {s : State}

theorem of_same {t : State} (h : Copied w i b n s) (slots : t.slots = s.slots)
    (urgent : ∀ a ∈ t.copier.urgent, a ∈ s.copier.urgent) : Copied w i b n t :=
  ⟨by simpa only [State.slot, slots] using h.slot, fun a listed => h.urgent a (urgent a listed)⟩

theorem blockState (h : Copied w i b n s) : s.blockState w i b = some .copied := by
  obtain ⟨x, k, slot, filling, copied, -⟩ := h.slot
  rw [State.blockState_of_slot slot (by rw [Slot.work, filling]), copied]

theorem startCopy {a : Urgent} (h : Copied w i b n s) (other : a ≠ ⟨w, i, b⟩) :
    Copied w i b n (Machine.startCopy a.window a.slot a.block s) := by
  obtain ⟨urgent, slot⟩ := startCopy_slot a.window w a.slot i a.block s
  obtain ⟨x, k, before, filling, copied, written⟩ := h.slot
  refine ⟨?_, by rw [urgent]; exact h.urgent⟩
  rcases slot with same | ⟨here, here', changed⟩
  · exact ⟨x, k, same.trans before, filling, copied, written⟩
  · have apart : a.block ≠ b := by
      rintro rfl
      subst here here'
      exact other rfl
    refine ⟨_, { k with map := k.map.set a.block .copying }, changed.trans (by rw [before]; rfl), ?_, ?_, written⟩
    · rw [Slot.updWork, filling]
    · rw [List.getElem?_set_ne apart]
      exact copied

theorem kickCopier (h : Copied w i b n s) : Copied w i b n (Machine.kickCopier s) := by
  rcases kickCopier_starts s with same | ⟨a, c, is, fewer, wanted⟩
  · rwa [same]
  · rw [is]
    refine (h.of_same (t := s.updCopier c) rfl fewer).startCopy ?_
    rintro rfl
    rcases wanted with listed | needs
    · exact h.urgent _ listed rfl
    · cases h.blockState.symm.trans needs

theorem listFirstNeedsCopy {pieces : List Piece} (h : Copied w i b n s) :
    Copied w i b n (Machine.listFirstNeedsCopy w i pieces s) := by
  unfold Machine.listFirstNeedsCopy
  split
  · exact h
  · next p found =>
    have needs := List.find?_some found
    unfold addUrgent
    split
    · exact h
    · refine Copied.kickCopier ⟨h.slot, fun a listed => ?_⟩
      rcases List.mem_append.mp listed with before | added
      · exact h.urgent a before
      · obtain rfl := List.mem_singleton.mp added
        rintro same
        simp only [Urgent.mk.injEq, true_and] at same
        simp [same, h.blockState] at needs

theorem clearCopyWait {m : Fin 16} (h : Copied w i b n s) : Copied w i b n (Machine.clearCopyWait m w i b s) := by
  unfold Machine.clearCopyWait
  split
  · exact h
  · next e _ =>
    extract_lets clear
    split
    · exact (h.of_same (t := s.updEntry m e.id (fun x => { x with pieces := x.pieces.map clear })) rfl
        (fun _ => id)).listFirstNeedsCopy
    · exact h

end Copied

/-! ### The writes that waited for the copy -/

/-- A piece once block `b` of slot `i` has been copied. -/
def Piece.copied (i : Fin 4) (b : Nat) (p : Piece) : Piece :=
  if p.target = .slot i ∧ p.unit = b ∧ p.cond = .copyWait then { p with cond := .clear } else p

theorem Piece.copied_clear {i : Fin 4} {b : Nat} {p : Piece} (target : (p.copied i b).target = .slot i)
    (block : (p.copied i b).unit = b) : (p.copied i b).cond ≠ .copyWait := by
  by_cases waited : p.target = .slot i ∧ p.unit = b ∧ p.cond = .copyWait
  · rw [Piece.copied, if_pos waited]
    show Cond.clear ≠ .copyWait
    nofun
  · rw [Piece.copied, if_neg waited] at target block ⊢
    exact fun waits => waited ⟨target, block, waits⟩

theorem clearCopyWait_lists (m w : Fin 16) (i : Fin 4) (b : Nat) (s : State) : (clearCopyWait m w i b s).responses =
    match s.current m with
    | none => s.responses
    | some e =>
      if e.window = some w ∧ e.pieces.any (fun p => decide (p.copied i b ≠ p)) = true then
        (s.updEntry m e.id (fun x => { x with pieces := x.pieces.map (Piece.copied i b) })).responses
      else s.responses := by
  unfold clearCopyWait
  cases s.current m with
  | none => rfl
  | some e =>
    dsimp only
    split
    · next h => exact (chooses_listFirstNeedsCopy ..).responses.trans (if_pos h).symm
    · next h => exact (if_neg h).symm

/-- No waiting write of window `w` waits for the copy of block `b` of slot `i`. -/
def Entry.unblocked (w : Fin 16) (i : Fin 4) (b : Nat) (e : Entry) : Prop :=
  e.window = some w → ∀ p ∈ e.pieces, p.target = .slot i → p.unit = b → p.cond ≠ .copyWait

theorem clearCopyWait_others {m n w : Fin 16} {i : Fin 4} {b : Nat} {s : State} (other : n ≠ m) :
    (clearCopyWait m w i b s).current n = s.current n := by
  have lists := clearCopyWait_lists m w i b s
  rw [State.current, lists]
  split
  · rfl
  · split
    · exact State.current_updEntry_ne s other ..
    · rfl

theorem clearCopyWait_clears {m w : Fin 16} {i : Fin 4} {b : Nat} {s : State} {e' : Entry}
    (current' : (clearCopyWait m w i b s).current m = some e') : e'.unblocked w i b := by
  have lists := clearCopyWait_lists m w i b s
  cases current : s.current m with
  | none =>
    rw [State.current, lists, current] at current'
    cases current.symm.trans current'
  | some e =>
    rw [current] at lists
    dsimp only at lists
    intro window p listed target block
    by_cases waits : e.window = some w ∧ e.pieces.any (fun p => decide (p.copied i b ≠ p)) = true
    · rw [if_pos waits] at lists
      let f (x : Entry) : Entry := if x.id = e.id then { x with pieces := x.pieces.map (Piece.copied i b) } else x
      have list : (clearCopyWait m w i b s).responses[m] = s.responses[m].map f := by
        rw [lists, State.updEntry_responses]
        exact upd_same ..
      rw [State.current_map list (fun x => by unfold f; split <;> rfl), current] at current'
      obtain rfl := Option.some.inj current'
      have cleared : (f e).pieces = e.pieces.map (Piece.copied i b) := congrArg Entry.pieces (if_pos rfl)
      rw [cleared] at listed
      obtain ⟨q, -, rfl⟩ := List.mem_map.mp listed
      exact Piece.copied_clear target block
    · rw [if_neg waits] at lists
      rw [State.current, lists] at current'
      obtain rfl := Option.some.inj (current.symm.trans current')
      intro waiting
      refine waits ⟨window, List.any_eq_true.mpr ⟨p, listed, decide_eq_true (fun same => ?_)⟩⟩
      rw [Piece.copied, if_pos ⟨target, block, waiting⟩] at same
      exact nomatch (congrArg Piece.cond same).trans waiting

theorem forMasters_clearCopyWait (w : Fin 16) (i : Fin 4) (b : Nat) (s : State) (m : Fin 16) (e : Entry)
    (current : (forMasters (fun m t => clearCopyWait m w i b t) s).current m = some e) : e.unblocked w i b := by
  refine forMasters_induct (P := fun done t => ∀ m ∈ done, ∀ e, t.current m = some e → e.unblocked w i b) (s := s)
    (fun _ h => nomatch h) (fun done m t _ h n listed x is => ?_) m (mem_masters m) e current
  by_cases here : n = m
  · subst here
    exact clearCopyWait_clears is
  · have before := (List.mem_append.mp listed).resolve_right (fun h => here (List.mem_singleton.mp h))
    exact h n before x ((clearCopyWait_others here).symm.trans is)

end Sys2Proof.Machine
end


section
/-! SUPPORT. The last write burst of a copy (R77, R78), into a FILLING and into a SEALED slot. -/

namespace Sys2Proof.Machine

/-! ### The burst -/

/-- The copier after the write of the last chunk has completed. -/
def Copier.wrote (c : Copier) (j : Fin 4) (y : Copy) : Copier :=
  { c with buffers := c.buffers.set j none, copy := some { y with written := y.written + 1 } }

/-- The write of the last chunk ends the copy. -/
theorem lastChunk_runs {tag : Fin 32} {data : List Dword} {q : MemRequest} {j : Fin 4} {y : Copy} {b : Buffer}
    {dt : List Dword} {d : Definition} {x : Slot} {s : State} (running : s.link.part = .running)
    (placed : s.places[tag] = some q) (owner : q.owner = .copierBurst j) (copy : s.copier.copy = some y)
    (kept : y.dropped = false) (sound : y.failed = false) (buffer : s.copier.buffers[j] = some b)
    (writing : b.stage = .writing dt) (definition : s.definition y.window = some d) (last : y.written + 1 = d.chunks)
    (slot : s.slot y.window y.dest = some x) (used : x.state ≠ .retiring) :
    exec (.copierBurstCompletion tag .done data) s =
      .next (endCopy y (s.burst tag y.window y.dest (s.copier.wrote j y) id)) := by
  have lowered : lowerSlotInFlight y.window y.dest (releasePlace tag s) = s.burst tag y.window y.dest s.copier id :=
    lowerSlotInFlight_burst slot (.inl used)
  rw [burstCompletion_runs running placed owner copy buffer]
  refine congrArg Host.Outcome.next ?_
  unfold burstCompleted
  rw [lowered]
  dsimp only
  rw [if_neg (by rw [kept, sound]; nofun), writing]
  show chunkWritten y (s.burst tag y.window y.dest (s.copier.clearBuffer j) id) = _
  unfold chunkWritten
  rw [show (s.burst tag y.window y.dest (s.copier.clearBuffer j) id).definition y.window = some d from definition]
  dsimp only
  rw [if_pos last, State.updCopy_eq (s := s.burst tag y.window y.dest (s.copier.clearBuffer j) id) copy]
  rfl

/-- A copy has ended, its block marked COPIED, and nothing follows from it yet. -/
def State.copyEnded (y : Copy) (s : State) : State :=
  { setBlock y.window y.dest y.block .copied s with draws := s.draws + 1 }

theorem endCopy_eq (y : Copy) (s : State) : endCopy y s =
    if Config.copierChoosesFirst s.draws then
      reportCopyEnd y.window y.dest y.block (kickCopier ((s.copyEnded y).updCopier Copier.endCopy))
    else kickCopier ((reportCopyEnd y.window y.dest y.block (s.copyEnded y)).updCopier Copier.endCopy) := rfl

theorem State.burst_slot {s : State} {tag : Fin 32} {w : Fin 16} {i : Fin 4} {x : Slot} (c : Copier)
    (slot : s.slot w i = some x) (used : x.state ≠ .retiring) :
    (s.burst tag w i c id).slot w i = some { x with inFlight := x.inFlight - 1 } := by
  have before : ({ s with places := s.places.set tag none, copier := c } : State).slot w i = some x := slot
  rw [State.burst, State.slot_updSlot, if_pos ⟨rfl, rfl⟩, before, Option.map_some, if_neg (fun h => used h.1)]
  rfl

theorem State.copyEnded_slot {y : Copy} {s : State} {x : Slot} (slot : s.slot y.window y.dest = some x) :
    (s.copyEnded y).slot y.window y.dest =
      some (x.updWork (fun k => { k with map := k.map.set y.block .copied })) := by
  show (setBlock y.window y.dest y.block .copied s).slot y.window y.dest = _
  rw [setBlock, State.slot_updSlot, if_pos ⟨rfl, rfl⟩, slot]
  rfl

/-- A change of one slot's record, as its window's slots show it. -/
theorem State.updSlot_unit {s : State} {w : Fin 16} {i : Fin 4} {u : SlotUnit} (slots : s.slots[w] = some u)
    (f : Slot → Slot) : (s.updSlot w i f).slots[w] = some (u.onSlot i f) := by
  rw [State.updSlot_onSlots, State.onSlots_get, slots]
  rfl

theorem State.copyEnded_unit {y : Copy} {s : State} {tag : Fin 32} {c : Copier} {u : SlotUnit}
    (slots : s.slots[y.window] = some u) :
    ∃ u', ((s.burst tag y.window y.dest c id).copyEnded y).slots[y.window] = some u' ∧ u'.roles = u.roles ∧
      ∀ j : Fin 4, j ≠ y.dest → u'.slots[j] = u.slots[j] := by
  have burst := State.updSlot_unit (s := { s with places := s.places.set tag none, copier := c }) (i := y.dest) slots
    (fun x => { x with
      inFlight := x.inFlight - 1
      state := if x.state = .retiring ∧ x.inFlight ≤ 1 ∧ x.waiting = 0 then .free else id x.state })
  have ended := State.updSlot_unit (s := s.burst tag y.window y.dest c id) (i := y.dest) burst
    (Slot.updWork (fun k => { k with map := k.map.set y.block .copied }))
  refine ⟨_, ended, rfl, fun j other => ?_⟩
  rw [SlotUnit.onSlot_get, if_neg other, SlotUnit.onSlot_get, if_neg other]

/-! ### Into a FILLING slot -/

theorem Copied.publishSealed {w : Fin 16} {i : Fin 4} {b n : Nat} {s : State} (h : Copied w i b n s) :
    Machine.publishSealed w i s = s := by
  obtain ⟨⟨state, _, _, _, _⟩, k, slot, filling, -⟩ := h.slot
  obtain rfl : state = .filling k := filling
  rw [Machine.publishSealed, slot]

theorem Copied.reportCopyEnd {w : Fin 16} {i : Fin 4} {b n : Nat} {s : State} (h : Copied w i b n s) :
    Copied w i b n (Machine.reportCopyEnd w i b s) ∧
      ∀ m e, (Machine.reportCopyEnd w i b s).current m = some e → e.unblocked w i b := by
  have cleared := forMasters_keeps (f := fun m t => Machine.clearCopyWait m w i b t) (Copied w i b n)
    (fun m t h => h.clearCopyWait) h
  rw [Machine.reportCopyEnd, cleared.publishSealed]
  exact ⟨cleared, forMasters_clearCopyWait w i b s⟩

theorem endCopy_copied {y : Copy} {n : Nat} {s : State} (h : Copied y.window y.dest y.block n (s.copyEnded y)) :
    Copied y.window y.dest y.block n (endCopy y s) ∧
      ∀ m e, (endCopy y s).current m = some e → e.unblocked y.window y.dest y.block := by
  rw [endCopy_eq]
  split
  · exact (Copied.kickCopier (s := (s.copyEnded y).updCopier Copier.endCopy) ⟨h.slot, h.urgent⟩).reportCopyEnd
  · obtain ⟨copied, unblocked⟩ := h.reportCopyEnd
    generalize reportCopyEnd y.window y.dest y.block (s.copyEnded y) = t at copied unblocked
    refine ⟨Copied.kickCopier (s := t.updCopier Copier.endCopy) ⟨copied.slot, copied.urgent⟩, fun m e current => ?_⟩
    rw [(chooses_kickCopier _).current] at current
    exact unblocked m e current

/-! ### Into a SEALED slot -/

/-- A slot that is PUBLISHED after copies began was so before. -/
theorem SlotUnit.Copies.published {u u' : SlotUnit} (h : u.Copies u') {j : Fin 4} {x' : Slot} {g : BitVec 32}
    (slot : u'.slots[j] = some x') (state : x'.state = .published g) : ∃ x, u.slots[j] = some x ∧ x = x' := by
  have cell := h.slots j
  rw [slot] at cell
  generalize u.slots[j] = before at cell
  cases cell with
  | @some x _ copies =>
    obtain ⟨f, -, rfl⟩ := copies
    have worked := Slot.work_updWork f x
    rw [Slot.work, state] at worked
    exact ⟨x, rfl, (Slot.updWork_none (Option.map_eq_none_iff.mp worked.symm) f).symm⟩

/-- The SEALED slot `i` of window `w`, whose slots were `u`, is to be published with tag `g`: it has no block left to copy,
and nothing asks for a copy into it. -/
structure Poised (w : Fin 16) (i : Fin 4) (g : BitVec 16) (u : SlotUnit) (s : State) : Prop where
  unit   : ∃ u', s.slots[w] = some u' ∧ u'.front = u.front ∧ u'.counter = u.counter ∧ u'.sealed = u.sealed ∧
    ∀ (j : Fin 4) z, j ≠ u.front → u'.slots[j] = some z → z.state ≠ .published (u.counter + 1)
  slot   : ∃ x k, s.slot w i = some x ∧ x.state = .sealed k g ∧ k.has BlockState.uncopied = false
  urgent : ∀ a ∈ s.copier.urgent, ¬ (a.window = w ∧ a.slot = i)

namespace Poised

variable {w : Fin 16} {i : Fin 4} {g : BitVec 16} {u : SlotUnit} {s : State}

theorem blockState (h : Poised w i g u s) (b : Nat) : s.blockState w i b ≠ some .needsCopy := by
  obtain ⟨x, k, slot, sealed, complete⟩ := h.slot
  rw [State.blockState_of_slot slot (by rw [Slot.work, sealed])]
  intro needs
  rw [(Work.has_uncopied k).mpr ⟨b, .inl needs⟩] at complete
  cases complete

/-- The copier's next choice is none of the slot's blocks. -/
theorem kickCopier_slot (h : Poised w i g u s) : (Machine.kickCopier s).slot w i = s.slot w i ∧
    ∀ a ∈ (Machine.kickCopier s).copier.urgent, a ∈ s.copier.urgent := by
  rcases kickCopier_starts s with same | ⟨a, c, is, fewer, wanted⟩
  · rw [same]
    exact ⟨rfl, fun _ => id⟩
  · obtain ⟨urgent, slot⟩ := startCopy_slot a.window w a.slot i a.block (s.updCopier c)
    rw [is, urgent]
    refine ⟨slot.resolve_right ?_, fewer⟩
    rintro ⟨rfl, rfl, -⟩
    rcases wanted with listed | needs
    · exact h.urgent a listed ⟨rfl, rfl⟩
    · exact h.blockState a.block needs

theorem kickCopier (h : Poised w i g u s) : Poised w i g u (Machine.kickCopier s) := by
  obtain ⟨u', slots, front, counter, sealed, fresh⟩ := h.unit
  obtain ⟨v, slots', copies⟩ := (chooses_kickCopier s).unit slots
  obtain ⟨slot, fewer⟩ := h.kickCopier_slot
  refine ⟨⟨v, slots', copies.front.trans front, copies.counter.trans counter, copies.sealed.trans sealed,
    fun j z behind is published => ?_⟩, by rw [slot]; exact h.slot, fun a listed => h.urgent a (fewer a listed)⟩
  obtain ⟨z₀, before, rfl⟩ := copies.published is published
  exact fresh j z₀ behind before published

theorem clearCopyWait {m : Fin 16} {b : Nat} (h : Poised w i g u s) : Poised w i g u (Machine.clearCopyWait m w i b s) := by
  unfold Machine.clearCopyWait
  split
  · exact h
  · next e _ =>
    extract_lets clear
    split
    · unfold listFirstNeedsCopy
      split
      · exact ⟨h.unit, h.slot, h.urgent⟩
      · next p found =>
        have needs := List.find?_some found
        rw [Bool.and_eq_true] at needs
        exact absurd (of_decide_eq_true needs.2) (h.blockState p.unit)
    · exact h

end Poised

/-- The slot published at the end of its last copy, whatever is chosen after. -/
structure Shown (w : Fin 16) (i : Fin 4) (g : BitVec 16) (u : SlotUnit) (s t : State) : Prop where
  unit   : ∃ u' x', t.slots[w] = some u' ∧ u'.front = i ∧ u'.counter = u.counter + 1 ∧ u'.sealed = none ∧
    u'.slots[i] = some x' ∧ x'.state = .published (u.counter + 1)
  views  : t.views = s.views
  notice : t.notice = s.notice.take (.published w i (u.counter + 1) g) s.timebase

theorem startSlotTimers_frame (w : Fin 16) (s : State) : startSlotTimers w s = { s with
    responses := (startSlotTimers w s).responses, stallTimers := (startSlotTimers w s).stallTimers } := by
  unfold startSlotTimers
  split
  · rfl
  split
  · rfl
  refine forMasters_keeps (fun t => t = { s with responses := t.responses, stallTimers := t.stallTimers })
    (fun m t h => ?_) rfl
  split
  · exact h
  split
  · rw [h]
    unfold startTimer
    split <;> rfl
  · exact h

theorem Poised.publishSealed {w : Fin 16} {i : Fin 4} {g : BitVec 16} {u : SlotUnit} {s : State} (h : Poised w i g u s)
    (sealed : u.sealed = some i) (behind : u.front ≠ i) : Shown w i g u s (Machine.publishSealed w i s) := by
  obtain ⟨⟨state, pins, flying, waiting, hold⟩, k, slot, is, complete⟩ := h.slot
  obtain rfl : state = .sealed k g := is
  obtain ⟨u', slots, front, counter, sealed', fresh⟩ := h.unit
  have cell : u'.slots[i] = some ⟨.sealed k g, pins, flying, waiting, hold⟩ := (State.slot_of slots i).symm.trans slot
  have published := publishSlot_publishes g slots cell (by rw [front]; exact behind)
    (fun j z other here => by rw [counter]; exact fresh j z (front ▸ other) here)
  obtain ⟨⟨v, slots', front', counter', sealed'', ⟨x', cell', state'⟩, -⟩, views, notice⟩ := published
  have runs : Machine.publishSealed w i s = startSlotTimers w (publishSlot w i g s) := by
    rw [Machine.publishSealed, slot]
    dsimp only
    rw [complete]
    rfl
  rw [runs, startSlotTimers_frame]
  rw [counter] at counter' state' notice
  rw [sealed', if_pos sealed] at sealed''
  exact ⟨⟨v, x', slots', front', counter', sealed'', cell', state'⟩, views, notice⟩

theorem shifts_clearCopyWait (m w : Fin 16) (i : Fin 4) (b : Nat) (s : State) : Shifts s (clearCopyWait m w i b s) := by
  unfold clearCopyWait
  split
  · exact .refl s
  · next e _ =>
    extract_lets clear
    split
    · exact Shifts.trans (t := s.updEntry m e.id (fun x => { x with pieces := x.pieces.map clear })) rfl
        (shifts_listFirstNeedsCopy ..)
    · exact .refl s

theorem Poised.reportCopyEnd {w : Fin 16} {i : Fin 4} {g : BitVec 16} {b : Nat} {u : SlotUnit} {s : State}
    (h : Poised w i g u s) (sealed : u.sealed = some i) (behind : u.front ≠ i) :
    Shown w i g u s (Machine.reportCopyEnd w i b s) := by
  obtain ⟨poised, shifts⟩ := forMasters_keeps (f := fun m t => Machine.clearCopyWait m w i b t)
    (fun t => Poised w i g u t ∧ Shifts s t)
    (fun m t h => ⟨h.1.clearCopyWait, h.2.trans (shifts_clearCopyWait ..)⟩) ⟨h, .refl s⟩
  obtain ⟨unit, views, notice⟩ := poised.publishSealed sealed behind
  exact ⟨unit, views.trans shifts.views, by rw [Machine.reportCopyEnd, notice, shifts.notice, shifts.timebase]⟩

theorem Shown.kickCopier {w : Fin 16} {i : Fin 4} {g : BitVec 16} {u : SlotUnit} {s t : State} (h : Shown w i g u s t) :
    Shown w i g u s (Machine.kickCopier t) := by
  obtain ⟨u', x', slots, front, counter, sealed, slot, state⟩ := h.unit
  have chooses := chooses_kickCopier t
  obtain ⟨v, slots', copies⟩ := chooses.unit slots
  obtain ⟨x'', slot', copied⟩ := copies.slot slot
  obtain rfl := copied.same (by rw [Slot.work, state])
  refine ⟨⟨v, x'', slots', copies.front.trans front, copies.counter.trans counter, copies.sealed.trans sealed, slot', state⟩,
    ?_, ?_⟩
  · rw [chooses.frame]
    exact h.views
  · rw [chooses.frame]
    exact h.notice

theorem Shown.of_start {w : Fin 16} {i : Fin 4} {g : BitVec 16} {u : SlotUnit} {s s' t : State} (h : Shown w i g u s' t)
    (shifts : Shifts s s') : Shown w i g u s t :=
  ⟨h.unit, h.views.trans shifts.views, by rw [h.notice, shifts.notice, shifts.timebase]⟩

theorem endCopy_shown {y : Copy} {g : BitVec 16} {u : SlotUnit} {s : State}
    (h : Poised y.window y.dest g u (s.copyEnded y)) (sealed : u.sealed = some y.dest) (behind : u.front ≠ y.dest) :
    Shown y.window y.dest g u (s.copyEnded y) (endCopy y s) := by
  rw [endCopy_eq]
  generalize s.copyEnded y = e at h
  split
  · have ended : Poised y.window y.dest g u (e.updCopier Copier.endCopy) := ⟨h.unit, h.slot, h.urgent⟩
    exact (ended.kickCopier.reportCopyEnd sealed behind).of_start ((shifts_updCopier ..).trans (shifts_kickCopier _))
  · obtain ⟨unit, views, notice⟩ := h.reportCopyEnd (b := y.block) sealed behind
    generalize reportCopyEnd y.window y.dest y.block e = t at unit views notice
    exact Shown.kickCopier (t := t.updCopier Copier.endCopy) ⟨unit, views, notice⟩

end Sys2Proof.Machine

namespace Sys2Proof
open Machine

/-- Settles O30: whichever acts first, the copier's next choice is another block, so that the slot's copied block stays as
it is, and a SEALED slot stays complete until it is published. -/
theorem copyEndReleasesWrites : Obligations.CopyEndReleasesWrites := by
  refine ⟨fun tag data q j y b dt d u x k s running placed owner copy kept sound buffer writing definition last slots cell
      filling copying urgent => ?_,
    fun tag data q j y b dt d u x k g s running placed owner copy kept sound buffer writing definition last slots sealed
      behind cell state complete urgent fresh => ?_⟩
  · have slot : s.slot y.window y.dest = some x := (State.slot_of slots _).trans cell
    have used : x.state ≠ .retiring := by rw [filling]; nofun
    have ended := State.copyEnded_slot (y := y) (State.burst_slot (tag := tag) (s.copier.wrote j y) slot used)
    have start : Copied y.window y.dest y.block k.written
        ((s.burst tag y.window y.dest (s.copier.wrote j y) id).copyEnded y) := by
      refine ⟨⟨_, { k with map := k.map.set y.block .copied }, ended, ?_, ?_, rfl⟩, fun a listed same => ?_⟩
      · rw [Slot.updWork, filling]
      · rw [List.getElem?_set_self (List.getElem?_eq_some_iff.mp copying).1]
      · subst same
        exact urgent _ listed ⟨rfl, rfl, rfl⟩
    obtain ⟨⟨⟨x', k', slot', filling', copied, written⟩, -⟩, unblocked⟩ := endCopy_copied start
    refine ⟨_, lastChunk_runs running placed owner copy kept sound buffer writing definition last slot used,
      ⟨k', ?_, copied, written⟩, fun m e p current window listed target block =>
        unblocked m e current window p listed target block⟩
    rw [State.work, slot', Option.bind_some, Slot.work, filling']
  · have slot : s.slot y.window y.dest = some x := (State.slot_of slots _).trans cell
    have used : x.state ≠ .retiring := by rw [state]; nofun
    have ended := State.copyEnded_slot (y := y) (State.burst_slot (tag := tag) (s.copier.wrote j y) slot used)
    have start : Poised y.window y.dest g u ((s.burst tag y.window y.dest (s.copier.wrote j y) id).copyEnded y) := by
      refine ⟨?_, ⟨_, { k with map := k.map.set y.block .copied }, ended, ?_, ?_⟩, urgent⟩
      · obtain ⟨u', slots', roles, others⟩ := State.copyEnded_unit (y := y) (tag := tag) (c := s.copier.wrote j y) slots
        obtain ⟨-, sealed', front', counter'⟩ := SlotUnit.of_roles roles
        refine ⟨u', slots', front', counter', sealed', fun j z other here published => ?_⟩
        by_cases target : j = y.dest
        · rw [target, ← State.slot_of slots', ended] at here
          obtain rfl := Option.some.inj here
          rw [Slot.updWork, state] at published
          cases published
        · exact fresh j z other ((others j target).symm.trans here) published
      · rw [Slot.updWork, state]
      · refine Bool.eq_false_iff.mpr (fun has => ?_)
        obtain ⟨n, uncopied⟩ := (Work.has_uncopied _).mp has
        by_cases here : y.block = n
        · subst here
          rw [List.getElem?_set_self'] at uncopied
          cases at_block : k.map[y.block]? with
          | none => rw [at_block] at uncopied; exact uncopied.elim nofun nofun
          | some z => rw [at_block] at uncopied; exact uncopied.elim nofun nofun
        · simp only [List.getElem?_set_ne here] at uncopied
          exact uncopied.elim (complete n (Ne.symm here)).1 (complete n (Ne.symm here)).2
    obtain ⟨⟨u', x', slots', front, counter, unsealed, slot', published⟩, views, notice⟩ :=
      endCopy_shown start sealed behind
    exact ⟨_, u', x', lastChunk_runs running placed owner copy kept sound buffer writing definition last slot used, slots',
      front, counter, unsealed, slot', published, views, notice⟩

end Sys2Proof
end
